-- ==== Sys2Proof/Word.lean ====
section
/-! DEFINITION. The word types of the station link. -/

namespace Sys2Proof

/-- One byte on the station link or the panel output. -/
abbrev Byte := BitVec 8

/-- Two bytes: a short packet's parameter, a payload length, a payload check, a log entry number. -/
abbrev Half := BitVec 16

end Sys2Proof
end

