-- ==== Sys2Proof/Syntax.lean ====
section
/-! DEFINITION. The commands: one constructor of `Instr` for each row of spec/opcode_table.json.
A request row carries the whole packet as it stands on the line, so that the checks of R5 and R7 are
part of its meaning; an event row carries what identifies the event. -/

namespace Sys2Proof

/-- A channel of the station link, 0 to 3 (00 section 2). -/
abbrev Channel := Fin 4

/-- The two mat readers: A on channel 0, B on channel 1 (00 section 2). -/
inductive Reader where
  | a
  | b
  deriving DecidableEq, Repr

/-- What follows the control byte of a packet (R4): a short packet's 16-bit parameter, or a long
packet's payload and the payload check received with it. -/
inductive Body where
  | short (param : Half)
  | long (payload : List Byte) (check : Half)
  deriving DecidableEq, Repr

/-- A packet as received, less its kind code, which the command names (11.1). `reserved` is control
bits 5 to 2. -/
structure Packet where
  asking : Bool
  reserved : BitVec 4
  channel : Channel
  headerCheck : Byte
  body : Body
  deriving DecidableEq, Repr

/-- The five bytes of a packet header as received (11.1). -/
structure Header where
  kind : Byte
  control : Byte
  param : Half
  check : Byte
  deriving DecidableEq, Repr

/-- The 36 request kinds (R8). -/
inductive Kind where
  | crossingReport | timedCrossingReport
  | clockSet | clockStop | clockTrim | waveSet | gunClear
  | pointSetup | rosterFill | fetchFills | pin | unpin | readRecord | correctPass | tableFlush
  | collect | release
  | postMessage | deleteMessage | endFeature | featureSetup | raceClear
  | boardLayout | displayMode | brightness | dutyTable | panelWindow | scanPeriod
  | listTiming | readLines | arbitrationSetup | status | attentionMask | channelReset
  | hold | releaseHold
  deriving DecidableEq, Repr

/-- The commands of the FS216. `tail` is the bytes received since the last whole packet of the burst. -/
inductive Instr where
  | powerOn
  | resetAsserted
  | openPattern
  | normalClose (tail : List Byte)
  | turnClose (tail : List Byte)
  | replyBurstEnd
  | cut (tail : List Byte)
  | headerBad (header : Header)
  | unknownKind (kind : Byte) (packet : Packet)
  | requestRaised (channel : Channel)
  | requestDropped (channel : Channel)
  | busyRelease
  | offerTimerExpiry
  | tenureReached
  | withdrawalGraceEnd
  | holdLimit
  | crossingReport (packet : Packet)
  | timedCrossingReport (packet : Packet)
  | clockSet (packet : Packet)
  | clockStop (packet : Packet)
  | clockTrim (packet : Packet)
  | clockAdvance
  | markPulse (reader : Reader)
  | markExpiry (reader : Reader) (number : BitVec 8)
  | waveSet (packet : Packet)
  | gunClear (packet : Packet)
  | passVisit
  | pointSetup (packet : Packet)
  | rosterFill (packet : Packet)
  | fetchFills (packet : Packet)
  | fillTimeout
  | pin (packet : Packet)
  | unpin (packet : Packet)
  | readRecord (packet : Packet)
  | correctPass (packet : Packet)
  | tableFlush (packet : Packet)
  | collect (packet : Packet)
  | release (packet : Packet)
  | postMessage (packet : Packet)
  | deleteMessage (packet : Packet)
  | endFeature (packet : Packet)
  | featureSetup (packet : Packet)
  | dwellExpiry
  | minDwellReached
  | lineExpiry (buffer : Fin 12)
  | listTiming (packet : Packet)
  | raceClear (packet : Packet)
  | boardLayout (packet : Packet)
  | displayMode (packet : Packet)
  | brightness (packet : Packet)
  | dutyTable (packet : Packet)
  | panelWindow (packet : Packet)
  | scanPeriod (packet : Packet)
  | scanStart
  | frameSent
  | readLines (packet : Packet)
  | arbitrationSetup (packet : Packet)
  | status (packet : Packet)
  | attentionMask (packet : Packet)
  | channelReset (packet : Packet)
  | hold (packet : Packet)
  | releaseHold (packet : Packet)
  deriving DecidableEq, Repr

end Sys2Proof
end

