-- ==== Sys2Proof/Config.lean ====
section
/-! DEFINITION. What the manual fixes for every FS216: capacities, time limits and value ranges.
The manual leaves no result undefined, so there is no free value here. -/

namespace Sys2Proof.Config

/-- The largest clock value, tick, race time and projection (R23). -/
@[simp] abbrev maxTick : Nat := 16777215

/-- The largest bib (00 section 5.2). -/
@[simp] abbrev maxBib : Nat := 65534

/-- The longest payload of a long packet (R4). -/
@[simp] abbrev maxPayload : Nat := 512

/-- The most replies a channel's reply queue holds (R11). -/
@[simp] abbrev replyCapacity : Nat := 4

/-- The offer timer, in ms (R15). -/
@[simp] abbrev offerLimit : Nat := 20

/-- The tenure after which a grant may be withdrawn, in ms (R17). -/
@[simp] abbrev tenureLimit : Nat := 50

/-- The withdrawal grace, in ms (R19). -/
@[simp] abbrev graceLimit : Nat := 20

/-- The hold limit, in ms (R20). -/
@[simp] abbrev holdLimit : Nat := 500

/-- The tick interval, in ms (R23). -/
@[simp] abbrev tickInterval : Nat := 10

/-- The most a Clock Trim adds or takes, in ticks (R26). -/
@[simp] abbrev trimLimit : Nat := 500

/-- The most marks a reader's queue holds (R28). -/
@[simp] abbrev markCapacity : Nat := 32

/-- The mark life, in ms (R30). -/
@[simp] abbrev markLife : Nat := 10000

/-- The most entries the fill request list holds (R71). -/
@[simp] abbrev fillCapacity : Nat := 32

/-- The fill timeout, in ms (R74). -/
@[simp] abbrev fillTimeout : Nat := 30000

/-- The offers after which a fill request is given up (R74). -/
@[simp] abbrev maxOffers : Nat := 3

/-- The most pinned slots (R67). -/
@[simp] abbrev pinLimit : Nat := 32

/-- The cap of a stored pace, in ticks per km (R92). -/
@[simp] abbrev paceCap : Nat := 359900

/-- The most entries the split log holds (R106). -/
@[simp] abbrev logCapacity : Nat := 2048

/-- The most entries a level's runner queue holds (R120). -/
@[simp] abbrev featureQueueCapacity : Nat := 4

/-- The most entries the board queue holds (R142). -/
@[simp] abbrev boardQueueCapacity : Nat := 64

/-- The cells of a board line (R155). -/
@[simp] abbrev lineCells : Nat := 48

/-- The largest one-byte count: refusals, read counts, mark trouble counts (R9, R32, R51). -/
@[simp] abbrev byteCountCap : Nat := 255

/-- The largest two-byte count: stale fills, refused appends, drops (R78, R109, R120, R144). -/
@[simp] abbrev halfCountCap : Nat := 65535

end Sys2Proof.Config
end

