-- ==== Sys2Proof/Machine/Bytes.lean ====
section
/-! DEFINITION. Byte order and the two checks of the station link and the panel output (5.6, R176). -/

namespace Sys2Proof.Machine

/-- `n` shifts of the CRC-8 register with generator x^8+x^2+x+1 (R176). -/
def crc8Shift : Nat → BitVec 8 → BitVec 8
  | 0, r => r
  | n + 1, r => crc8Shift n (if r.msb then (r <<< 1) ^^^ 0x07#8 else r <<< 1)

/-- The header check: CRC-8, register starting at 0, most significant bit first (R176). -/
def crc8 (bytes : List Byte) : Byte :=
  bytes.foldl (fun r b => crc8Shift 8 (r ^^^ b)) 0x00#8

/-- `n` shifts of the CRC-16 register with generator x^16+x^15+x^2+1 (R176). -/
def crc16Shift : Nat → BitVec 16 → BitVec 16
  | 0, r => r
  | n + 1, r => crc16Shift n (if r.msb then (r <<< 1) ^^^ 0x8005#16 else r <<< 1)

/-- The payload check and frame check: CRC-16, register starting at all ones (R176). -/
def crc16 (bytes : List Byte) : Half :=
  bytes.foldl (fun r b => crc16Shift 8 (r ^^^ (b ++ 0x00#8))) 0xFFFF#16

/-- One byte of a number. -/
def be8 (n : Nat) : List Byte := [BitVec.ofNat 8 n]

/-- Two bytes, most significant first (5.6). -/
def be16 (n : Nat) : List Byte := [BitVec.ofNat 8 (n / 256), BitVec.ofNat 8 n]

/-- Four bytes, most significant first (5.6). -/
def be32 (n : Nat) : List Byte := be16 (n / 65536) ++ be16 n

/-- The byte at place `i` of a payload. -/
def byteAt (l : List Byte) (i : Nat) : Nat := (l.getD i 0x00#8).toNat

/-- The two-byte number at place `i`, most significant byte first (5.6). -/
def halfAt (l : List Byte) (i : Nat) : Nat := byteAt l i * 256 + byteAt l (i + 1)

/-- The four-byte number at place `i`, most significant byte first (5.6). -/
def longAt (l : List Byte) (i : Nat) : Nat := halfAt l i * 65536 + halfAt l (i + 2)

/-- The bytes a header check covers: kind, control and the two bytes of parameter or length (11.1). -/
def headerBytes (h : Header) : List Byte :=
  [h.kind, h.control] ++ be16 h.param.toNat

/-- The long flag, bit 6 of the control byte (11.1). -/
def headerIsLong (h : Header) : Bool := h.control.getLsbD 6

/-- The channel field, bits 1 and 0 of the control byte (11.1). -/
def headerChannel (h : Header) : Channel := (h.control.extractLsb' 0 2).toFin

/-- Whether a packet is long. -/
def bodyIsLong : Body → Bool
  | .short _ => false
  | .long _ _ => true

/-- Bytes 2 and 3 of a packet: the parameter of a short packet, the payload length of a long one (R4). -/
def bodyParam : Body → Half
  | .short v => v
  | .long payload _ => BitVec.ofNat 16 payload.length

/-- The payload bytes; a short packet has none. -/
def bodyPayload : Body → List Byte
  | .short _ => []
  | .long payload _ => payload

/-- The control byte of a packet: asking flag, long flag, four reserved bits, channel (11.1). -/
def packetControl (p : Packet) : Byte :=
  BitVec.ofBool p.asking ++ BitVec.ofBool (bodyIsLong p.body) ++ p.reserved ++
    BitVec.ofNat 2 p.channel.val

/-- The header of a packet that carries kind code `kind`. -/
def packetHeader (kind : Byte) (p : Packet) : Header :=
  { kind, control := packetControl p, param := bodyParam p.body, check := p.headerCheck }

/-- The header check of R5, step 1: the CRC-8 holds and a long packet's length is at most 512. -/
def headerOk (h : Header) : Bool :=
  crc8 (headerBytes h) == h.check && (!headerIsLong h || h.param.toNat ≤ Config.maxPayload)

/-- The payload check of R5, step 5; a short packet has none. -/
def payloadOk : Body → Bool
  | .short _ => true
  | .long payload check => crc16 payload == check

/-- A packet the device sends: control bits 5 to 2 clear, asking flag clear, both checks computed
(R174, R175, R176). -/
def sentLong (kind : Nat) (c : Channel) (payload : List Byte) : List Byte :=
  let head := be8 kind ++ be8 (64 + c.val) ++ be16 payload.length
  head ++ [crc8 head] ++ payload ++ be16 (crc16 payload).toNat

/-- A short packet the device sends (R175). -/
def sentShort (kind : Nat) (c : Channel) (param : Nat) : List Byte :=
  let head := be8 kind ++ be8 c.val ++ be16 param
  head ++ [crc8 head]

end Sys2Proof.Machine
end

