-- ==== Sys2Proof/Machine/Kinds.lean ====
section
/-! DEFINITION. The request kinds: codes (11.2), permitted channels and replies (R8), forms and lengths
(R7, R174). -/

namespace Sys2Proof.Machine

/-- The request kinds in the order of their codes 0x01 to 0x24 (11.2). -/
def allKinds : List Kind :=
  [.crossingReport, .timedCrossingReport, .clockSet, .clockStop, .clockTrim, .waveSet, .gunClear,
   .pointSetup, .rosterFill, .fetchFills, .pin, .unpin, .readRecord, .correctPass, .tableFlush,
   .collect, .release, .postMessage, .deleteMessage, .endFeature, .featureSetup, .raceClear,
   .boardLayout, .displayMode, .brightness, .dutyTable, .panelWindow, .scanPeriod, .listTiming,
   .readLines, .arbitrationSetup, .status, .attentionMask, .channelReset, .hold, .releaseHold]

/-- The kind code of a request kind (11.2). -/
def kindCode : Kind → Byte
  | .crossingReport => 0x01#8
  | .timedCrossingReport => 0x02#8
  | .clockSet => 0x03#8
  | .clockStop => 0x04#8
  | .clockTrim => 0x05#8
  | .waveSet => 0x06#8
  | .gunClear => 0x07#8
  | .pointSetup => 0x08#8
  | .rosterFill => 0x09#8
  | .fetchFills => 0x0A#8
  | .pin => 0x0B#8
  | .unpin => 0x0C#8
  | .readRecord => 0x0D#8
  | .correctPass => 0x0E#8
  | .tableFlush => 0x0F#8
  | .collect => 0x10#8
  | .release => 0x11#8
  | .postMessage => 0x12#8
  | .deleteMessage => 0x13#8
  | .endFeature => 0x14#8
  | .featureSetup => 0x15#8
  | .raceClear => 0x16#8
  | .boardLayout => 0x17#8
  | .displayMode => 0x18#8
  | .brightness => 0x19#8
  | .dutyTable => 0x1A#8
  | .panelWindow => 0x1B#8
  | .scanPeriod => 0x1C#8
  | .listTiming => 0x1D#8
  | .readLines => 0x1E#8
  | .arbitrationSetup => 0x1F#8
  | .status => 0x20#8
  | .attentionMask => 0x21#8
  | .channelReset => 0x22#8
  | .hold => 0x23#8
  | .releaseHold => 0x24#8

/-- The request kind a code stands for; none for a code that is no request kind (11.2). -/
def kindOfCode (code : Byte) : Option Kind :=
  allKinds.find? fun k => kindCode k == code

/-- The channels permitted to send a kind (R8). -/
def kindPermitted (k : Kind) (c : Channel) : Bool :=
  match k with
  | .crossingReport | .timedCrossingReport => c.val < 2
  | .clockSet | .clockStop | .clockTrim | .waveSet | .gunClear | .pointSetup | .rosterFill
  | .fetchFills | .pin | .unpin | .correctPass | .tableFlush | .collect | .release
  | .postMessage | .deleteMessage | .raceClear => c.val == 2
  | .readRecord | .endFeature | .featureSetup => 2 ≤ c.val
  | .boardLayout | .displayMode | .brightness | .dutyTable | .panelWindow | .scanPeriod
  | .listTiming | .readLines | .arbitrationSetup => c.val == 3
  | .status | .attentionMask | .channelReset | .hold | .releaseHold => true

/-- The asking kinds, which always reply (R4, R8, 11.2). -/
def kindAsking : Kind → Bool
  | .status | .fetchFills | .readRecord | .collect | .readLines => true
  | _ => false

/-- The payload length a long kind accepts for a payload; none for a short kind (11.2). The length of
a Roster Fill must agree with its name length (R76) and that of a Post Message with its line count (R123). -/
def kindLength (k : Kind) (payload : List Byte) : Option Nat :=
  match k with
  | .crossingReport => some 4
  | .timedCrossingReport => some 6
  | .clockSet => some 4
  | .waveSet => some 11
  | .pointSetup => some 12
  | .rosterFill => some (11 + byteAt payload 3)
  | .pin => some 3
  | .correctPass => some 7
  | .collect => some 3
  | .postMessage => some (5 + 48 * byteAt payload 4)
  | .featureSetup => some 5
  | .boardLayout => some 3
  | .dutyTable => some 16
  | .panelWindow => some 7
  | .listTiming => some 10
  | .attentionMask => some 3
  | .clockStop | .clockTrim | .gunClear | .fetchFills | .unpin | .readRecord | .tableFlush
  | .release | .deleteMessage | .endFeature | .raceClear | .displayMode | .brightness
  | .scanPeriod | .readLines | .arbitrationSetup | .status | .channelReset | .hold
  | .releaseHold => none

/-- The form and length check of R7: a short kind must be short, a long kind long and of its length. -/
def formOk (k : Kind) (body : Body) : Bool :=
  match body with
  | .short _ => kindLength k [] == none
  | .long payload _ => kindLength k payload == some payload.length

end Sys2Proof.Machine
end

