-- ==== Sys2Proof/Machine/State.lean ====
section
/-! DEFINITION. The state of the FS216: every register, queue, table, timer and pin the manual gives each
block, as plain data, with its power-on values. -/

namespace Sys2Proof.Machine

/-! ### Names shared by the blocks -/

/-- A wave, 0 to 7. -/
abbrev Wave := Fin 8

/-- A feature level, 0 to 7; 0 has the highest priority. -/
abbrev Level := Fin 8

/-- A runner table slot, 0 to 255. -/
abbrev Slot := Fin 256

/-- Pass 1 or pass 2 of a runner. -/
inductive PassNo where
  | one
  | two
  deriving DecidableEq, Repr

/-! ### Link controller (chapter 1) -/

/-- The refusal reasons (11.3). -/
inductive Reason where
  | noSuchMark | futureTime | clockStopped | clockRunning | badBib | badValue | notPresent
  | pinLimit | replyFull | notPermitted | unknownKind | badLength | busyState
  deriving DecidableEq, Repr

/-- A channel's error record: link error flags, refusal count, first refusal (R9). -/
structure ErrorRecord where
  headerBad : Bool
  payloadBad : Bool
  cut : Bool
  wrongChannel : Bool
  lapsed : Bool
  refusals : Nat
  first : Option (Byte × Reason)
  deriving DecidableEq, Repr

/-- The empty error record (R9). -/
def ErrorRecord.empty : ErrorRecord :=
  { headerBad := false, payloadBad := false, cut := false, wrongChannel := false, lapsed := false,
    refusals := 0, first := none }

/-- The grant state with the timers that run in it, each by the local time it started (R13).
A withdrawal grace of none is a grace that is over. -/
inductive Grant where
  | idle
  | parked (c : Channel)
  | offered (c : Channel) (since : Nat)
  | held (c : Channel) (tenureFrom : Nat)
  | withdrawing (c : Channel) (graceFrom : Option Nat)
  deriving DecidableEq, Repr

/-- The arbitration mode (R21). -/
inductive ArbMode where
  | fixed
  | rotating
  deriving DecidableEq, Repr

/-- The burst open on the line (R1, R6, R19): taken for a channel, with its packet boundaries lost
after a HEADER_BAD or not; ignored from the end of that channel's grace; or opened in IDLE and ignored. -/
inductive Burst where
  | taken (c : Channel) (framingLost : Bool)
  | afterGrace (c : Channel)
  | unheard
  deriving DecidableEq, Repr

/-! ### Runner records (R63, R64) -/

/-- Where a pass tick came from (R64). -/
inductive Source where
  | markedA | markedB | timedA | timedB | corrected
  deriving DecidableEq, Repr

/-- A present pass (R64). -/
structure Pass where
  tick : Nat
  source : Source
  count : Nat
  deriving DecidableEq, Repr

/-- The derived values of a pass (R64). -/
structure Derived where
  raceTime : Option Nat
  pace : Option Nat
  projection : Option Nat
  noWave : Bool
  noGun : Bool
  beforeGun : Bool
  paceCapped : Bool
  projCapped : Bool
  deriving DecidableEq, Repr

/-- Absent derived values and clear flags (R64). -/
def Derived.absent : Derived :=
  { raceTime := none, pace := none, projection := none, noWave := false, noGun := false,
    beforeGun := false, paceCapped := false, projCapped := false }

/-- The fill state of a record (R63). -/
inductive FillState where
  | new | filled | unfilled
  deriving DecidableEq, Repr

/-- A runner record (R63). `upstream` is a distance in metres and a race time in ticks. -/
structure Record where
  bib : Nat
  name : Option (List Byte)
  fillWave : Option Wave
  waveInUse : Option Wave
  upstream : Option (Nat × Nat)
  pass1 : Option Pass
  pass2 : Option Pass
  derived1 : Derived
  derived2 : Derived
  pin : Option Level
  fill : FillState
  stale : Bool
  deriving DecidableEq, Repr

/-- A record with its bib and fill state and every optional field absent (R63). -/
def Record.fresh (bib : Nat) (fill : FillState) : Record :=
  { bib, name := none, fillWave := none, waveInUse := none, upstream := none, pass1 := none,
    pass2 := none, derived1 := Derived.absent, derived2 := Derived.absent, pin := none, fill,
    stale := false }

/-! ### Log entries (R105) -/

/-- The classes of crossings (R50). -/
inductive Class where
  | pass1 | pass2 | revision1 | revision2 | duplicate | extra
  deriving DecidableEq, Repr

/-- A split log entry (R105). -/
structure LogEntry where
  number : Half
  bib : Nat
  reader : Reader
  timed : Bool
  tick : Nat
  cls : Class
  wave : Option Wave
  gapBefore : Bool
  deriving DecidableEq, Repr

/-! ### Board cells (R155) and clock states (R23) -/

/-- A cell of the board image (R155). -/
structure Cell where
  char : Byte
  emphasis : Bool
  deriving DecidableEq, Repr

/-- A space with the emphasis flag clear. -/
def Cell.blank : Cell := { char := 0x20#8, emphasis := false }

/-- The clock state; RUNNING with the local time at which its tick interval began (R23). -/
inductive ClockState where
  | stopped
  | running (intervalFrom : Nat)
  | full
  deriving DecidableEq, Repr

/-- The race clock (R23). -/
structure Clock where
  value : Nat
  state : ClockState
  deriving DecidableEq, Repr

/-! ### Replies (11.3) -/

/-- The items of a Status reply (R170, 11.5). -/
structure StatusReply where
  clock : Clock
  occupied : Nat
  pinned : Nat
  staleFills : Nat
  waiting : Nat
  sent : Nat
  logOldest : Half
  logCount : Nat
  logNext : Half
  logRefused : Nat
  queued : Nat
  queueDrops : Nat
  shownLevel : Option Level
  suspended : Nat
  featureDrops : Nat
  unusable : BitVec 6
  conditions : BitVec 6
  marks : Option (Nat × Nat × Nat)
  deriving DecidableEq, Repr

/-- A reply as computed at its request's execution (R11). -/
inductive Reply where
  | record (slot : Slot) (record : Record) (held : Bool)
  | fillList (left : Nat) (bibs : List (Nat × Nat))
  | logEntries (oldest : Half) (count : Nat) (next : Half) (entries : List LogEntry)
  | lines (lineCount bandHeight first : Nat) (rows : List (List Cell))
  | status (status : StatusReply)
  deriving DecidableEq, Repr

/-- The reply burst being sent: the channel and the packets, as bytes, fixed when it opened (R12). -/
structure ReplyBurst where
  channel : Channel
  packets : List (List Byte)
  deriving DecidableEq, Repr

/-- The state of the link controller and its arbiter (chapter 1). `masterBusy` says that a master
drives the busy line; the device drives it while `replyBurst` is present (R3). -/
structure LinkState where
  requestLine : Vector Bool 4
  masterBusy : Bool
  grant : Grant
  mode : ArbMode
  park : Option Channel
  lastGranted : Channel
  holdFrom : Option Nat
  burst : Option Burst
  replyBurst : Option ReplyBurst
  replies : Vector (List Reply) 4
  errors : Vector ErrorRecord 4
  deriving DecidableEq, Repr

/-! ### Clock and mark unit (chapter 2) -/

/-- A captured mark (R28). -/
structure Mark where
  number : BitVec 8
  tick : Nat
  captured : Nat
  deriving DecidableEq, Repr

/-- A reader's mark queue and next mark number (R28, R29). -/
structure ReaderMarks where
  queue : List Mark
  next : BitVec 8
  deriving DecidableEq, Repr

/-- An entry of the wave table (2.3): first and last bib, and gun tick. -/
structure WaveEntry where
  range : Option (Nat × Nat)
  gun : Option Nat
  deriving DecidableEq, Repr

/-- The state of the clock and mark unit. -/
structure CmuState where
  clock : Clock
  marksA : ReaderMarks
  marksB : ReaderMarks
  waves : Vector WaveEntry 8
  deriving DecidableEq, Repr

/-! ### Crossing intake (chapter 3) -/

/-- The point settings (3.1). -/
structure PointSettings where
  courseLength : Nat
  d1 : Nat
  d2 : Nat
  gap : Nat
  window : Nat
  deriving DecidableEq, Repr

/-! ### Runner table (chapter 4) -/

/-- A fill request (R71). -/
structure FillRequest where
  bib : Nat
  slot : Slot
  sent : Bool
  offers : Nat
  sentAt : Option Nat
  deriving DecidableEq, Repr

/-- The state of the runner table. -/
structure RunnerTable where
  slots : Vector (Option Record) 256
  order : List Slot
  holds : Vector Nat 256
  fills : List FillRequest
  staleFills : Nat
  deriving DecidableEq, Repr

/-- The runner table at power-on and after Race Clear (R87). -/
def RunnerTable.empty : RunnerTable :=
  { slots := Vector.replicate 256 none, order := (List.finRange 256).reverse,
    holds := Vector.replicate 256 0, fills := [], staleFills := 0 }

/-! ### Split arithmetic (chapter 5); the STALE marks are in the records -/

/-- The recomputation pass: none in flight, or the next slot to visit (R98). -/
structure PassState where
  position : Option Slot
  deriving DecidableEq, Repr

/-! ### Split log (chapter 6) -/

/-- The state of the split log. -/
structure SplitLog where
  entries : List LogEntry
  next : Half
  refused : Nat
  gapArmed : Bool
  deriving DecidableEq, Repr

/-- The split log at power-on and after Race Clear (R118). -/
def SplitLog.empty : SplitLog := { entries := [], next := 0#16, refused := 0, gapArmed := false }

/-! ### Feature controller (chapter 7) -/

/-- The kind of a runner queue entry (R120). -/
inductive FeatureKind where
  | runner
  | leader
  deriving DecidableEq, Repr

/-- An entry of a level's runner queue (R120). -/
structure FeatureEntry where
  slot : Slot
  bib : Nat
  kind : FeatureKind
  deriving DecidableEq, Repr

/-- The states of a message that is not EMPTY (R122). -/
inductive MessageState where
  | waiting | shown | suspended
  deriving DecidableEq, Repr

/-- A stored message (R122); the duration is in seconds. -/
structure Message where
  level : Level
  duration : Nat
  lines : List (List Byte)
  state : MessageState
  deriving DecidableEq, Repr

/-- What a shown or suspended feature refers to (7.1). -/
inductive FeatureRef where
  | message (m : Fin 8)
  | runner (entry : FeatureEntry)
  deriving DecidableEq, Repr

/-- A shown or suspended feature: its recorded level, reference, and remaining dwell in ms; a dwell of
none is held (7.1). -/
structure Feature where
  level : Level
  ref : FeatureRef
  dwell : Option Nat
  deriving DecidableEq, Repr

/-- The feature mode (R126). -/
inductive FeatureMode where
  | nested
  | rotating
  deriving DecidableEq, Repr

/-- The state of the feature controller. `stack` has its top first; `posting` lists the message numbers
in the order of their posting places. -/
structure FeatureState where
  queues : Vector (List FeatureEntry) 8
  messages : Vector (Option Message) 8
  posting : List (Fin 8)
  mask : BitVec 8
  shown : Option Feature
  stack : List Feature
  mode : FeatureMode
  rotation : List Level
  leader1 : Bool
  leader2 : Bool
  leaderLevel : Option Level
  runnerDwell : Nat
  drops : Nat
  deriving DecidableEq, Repr

/-! ### List controller (chapter 8) -/

/-- A SHOWN line buffer (R139). -/
structure ListLine where
  slot : Slot
  bib : Nat
  pass : PassNo
  shownAt : Nat
  cells : List Cell
  deriving DecidableEq, Repr

/-- A board queue entry (R142). -/
structure QueueEntry where
  slot : Slot
  bib : Nat
  pass : PassNo
  tick : Nat
  deriving DecidableEq, Repr

/-- The state of the list controller. K is the number of buffers; none is an EMPTY buffer. -/
structure ListState where
  buffers : List (Option ListLine)
  top : Nat
  queue : List QueueEntry
  minDwell : Nat
  lineExpiry : Nat
  leadDelay : Nat
  ageLimit : Nat
  drops : Nat
  deriving DecidableEq, Repr

/-! ### Board image and panel scan (chapter 9) -/

/-- The display mode (R158). -/
inductive DisplayMode where
  | normal | blank | test | inverse
  deriving DecidableEq, Repr

/-- A defined panel window (R161). -/
structure Window where
  address : Nat
  firstLine : Nat
  lastLine : Nat
  firstCell : Nat
  lastCell : Nat
  turned : Bool
  deriving DecidableEq, Repr

/-- The frame being sent: its window and its bytes, fixed when it was built (R164, R165). -/
structure Sending where
  window : Fin 6
  bytes : List Byte
  deriving DecidableEq, Repr

/-- The state of the board image and panel scan block. -/
structure BoardState where
  lineCount : Nat
  bandHeight : Nat
  clockWave : Wave
  image : List (List Cell)
  display : DisplayMode
  brightness : Fin 16
  duty : Vector Byte 16
  windows : Vector (Option Window) 6
  unusable : Vector Bool 6
  scanPeriod : Nat
  scanFrom : Nat
  sending : Option Sending
  deriving DecidableEq, Repr

/-- Cells of the characters of a text, emphasis clear. -/
def plainCells (text : List Byte) : List Cell := text.map fun c => { char := c, emphasis := false }

/-- Band line 0 at power-on: "WAVE 0" at cells 0 to 5 and -:--:-- at cells 41 to 47 (R155). -/
def idleLineAtPowerOn : List Cell :=
  plainCells ([0x57#8, 0x41#8, 0x56#8, 0x45#8, 0x20#8, 0x30#8] ++ List.replicate 35 0x20#8 ++
    [0x2D#8, 0x3A#8, 0x2D#8, 0x2D#8, 0x3A#8, 0x2D#8, 0x2D#8])

/-- A blank board line. -/
def blankLine : List Cell := List.replicate 48 Cell.blank

/-! ### Attention and status (chapter 10) -/

/-- A reader's lost-marks and orphan-marks counts (R32). -/
structure MarkCounts where
  lost : Nat
  orphan : Nat
  deriving DecidableEq, Repr

/-- The state of the attention and status block. -/
structure AttentionState where
  masks : Vector (BitVec 6) 4
  logThreshold : Nat
  countsA : MarkCounts
  countsB : MarkCounts
  deriving DecidableEq, Repr

/-! ### The device -/

/-- The whole state. `pending` is the queue of commands that wait, the model's own (log 15). -/
structure State where
  lc : LinkState
  cmu : CmuState
  ci : PointSettings
  rt : RunnerTable
  sa : PassState
  sl : SplitLog
  fc : FeatureState
  ls : ListState
  bi : BoardState
  att : AttentionState
  localTime : Nat
  resetHeld : Bool
  pending : List Instr
  deriving DecidableEq, Repr

/-- The faults of the model. -/
inductive Fault where
  /-- Raised by an allocation (R70) that finds every slot pinned or held. R68 says that cannot happen;
  the manual gives no effect for it. Safe: the model stops where the device never comes. -/
  | noVictim
  deriving DecidableEq, Repr

/-- The refusals of the model. -/
inductive Refusal where
  /-- A command that has no meaning yet; raised by no arm of `exec`. Safe. -/
  | notModelled (mnemonic : String)
  deriving DecidableEq, Repr

/-! ### Updates of one block, and power-on values -/

/-- Replace the link state. -/
def State.withLc (s : State) (x : LinkState) : State := { s with lc := x }
/-- Replace the state of the clock and mark unit. -/
def State.withCmu (s : State) (x : CmuState) : State := { s with cmu := x }
/-- Replace the point settings. -/
def State.withCi (s : State) (x : PointSettings) : State := { s with ci := x }
/-- Replace the runner table. -/
def State.withRt (s : State) (x : RunnerTable) : State := { s with rt := x }
/-- Replace the pass state. -/
def State.withSa (s : State) (x : PassState) : State := { s with sa := x }
/-- Replace the split log. -/
def State.withSl (s : State) (x : SplitLog) : State := { s with sl := x }
/-- Replace the state of the feature controller. -/
def State.withFc (s : State) (x : FeatureState) : State := { s with fc := x }
/-- Replace the state of the list controller. -/
def State.withLs (s : State) (x : ListState) : State := { s with ls := x }
/-- Replace the state of the board image block. -/
def State.withBi (s : State) (x : BoardState) : State := { s with bi := x }
/-- Replace the state of the attention and status block. -/
def State.withAtt (s : State) (x : AttentionState) : State := { s with att := x }
/-- Replace the command queue. -/
def State.withPending (s : State) (x : List Instr) : State := { s with pending := x }

/-- The link state at power-on, for the levels the masters drive on their request lines and on the
busy line, which are inputs (R22). -/
def linkAtPowerOn (requestLine : Vector Bool 4) (masterBusy : Bool) : LinkState :=
  { requestLine, masterBusy, grant := .idle, mode := .rotating, park := none, lastGranted := 3,
    holdFrom := none, burst := none, replyBurst := none, replies := Vector.replicate 4 [],
    errors := Vector.replicate 4 ErrorRecord.empty }

/-- The clock and mark unit at power-on (R39). -/
def cmuAtPowerOn : CmuState :=
  { clock := { value := 0, state := .stopped }, marksA := { queue := [], next := 0#8 },
    marksB := { queue := [], next := 0#8 },
    waves := Vector.replicate 8 { range := none, gun := none } }

/-- The point settings at power-on (R61). -/
def pointAtPowerOn : PointSettings :=
  { courseLength := 42195, d1 := 0, d2 := 0, gap := 120000, window := 600 }

/-- The rotation order at power-on and after Race Clear (R126). -/
def firstRotation : List Level := [1, 2, 3, 4, 5, 6, 7]

/-- The feature controller at power-on (R138). The posting places of EMPTY messages are DESIGN CHOICE
(log 10). -/
def featureAtPowerOn : FeatureState :=
  { queues := Vector.replicate 8 [], messages := Vector.replicate 8 none,
    posting := List.finRange 8, mask := 0#8, shown := none, stack := [], mode := .nested,
    rotation := firstRotation, leader1 := false, leader2 := false, leaderLevel := some 1,
    runnerDwell := 6000, drops := 0 }

/-- The list controller at power-on (R154). -/
def listAtPowerOn : ListState :=
  { buffers := List.replicate 8 none, top := 0, queue := [], minDwell := 2000, lineExpiry := 0,
    leadDelay := 800, ageLimit := 2000, drops := 0 }

/-- The board image block at power-on (R155, R167): a scan starts at local time 0, and with no window
defined it ends at once. -/
def boardAtPowerOn : BoardState :=
  { lineCount := 10, bandHeight := 2, clockWave := 0,
    image := idleLineAtPowerOn :: List.replicate 9 blankLine, display := .normal, brightness := 8,
    duty := Vector.ofFn fun i => BitVec.ofNat 8 (17 * i.val),
    windows := Vector.replicate 6 none, unusable := Vector.replicate 6 false, scanPeriod := 100,
    scanFrom := 0, sending := none }

/-- The attention and status block at power-on (R171, R173). -/
def attentionAtPowerOn : AttentionState :=
  { masks := Vector.replicate 4 0x3F#6, logThreshold := 512,
    countsA := { lost := 0, orphan := 0 }, countsB := { lost := 0, orphan := 0 } }

/-- Every block at its power-on values (R171), for given inputs, RESET level and waiting commands. -/
def State.atPowerOn (requestLine : Vector Bool 4) (masterBusy resetHeld : Bool)
    (pending : List Instr) : State :=
  { lc := linkAtPowerOn requestLine masterBusy, cmu := cmuAtPowerOn, ci := pointAtPowerOn,
    rt := RunnerTable.empty, sa := { position := none }, sl := SplitLog.empty,
    fc := featureAtPowerOn, ls := listAtPowerOn, bi := boardAtPowerOn, att := attentionAtPowerOn,
    localTime := 0, resetHeld, pending }

/-- The machine right after reset: RESET released, every block at its power-on values (R171). The input
lines are low and released (DESIGN CHOICE, log 4), so the grant decision of R14 leaves IDLE. -/
def State.reset : State := State.atPowerOn (Vector.replicate 4 false) false false []

end Sys2Proof.Machine
end

