-- ==== Sys2Proof/Machine/Operands.lean ====
section
/-! DEFINITION. Reading a request's operands from its parameter or payload: absent encodings (11.4),
clamps (5.5), characters, and the reader of a channel. -/

namespace Sys2Proof.Machine

/-- The parameter of a short request as a number. -/
def paramOf (p : Packet) : Nat := (bodyParam p.body).toNat

/-- The high byte of a short request's parameter. -/
def paramHigh (p : Packet) : Nat := paramOf p / 256

/-- The low byte of a short request's parameter. -/
def paramLow (p : Packet) : Nat := paramOf p % 256

/-- The parameter of a short request as a two's complement number (11.2, Clock Trim). -/
def paramSigned (p : Packet) : Int := (bodyParam p.body).toInt

/-- The payload of a long request. -/
def payloadOf (p : Packet) : List Byte := bodyPayload p.body

/-- The nearest value in `lo` to `hi` (5.5, clamped values). -/
def clamp (lo hi n : Nat) : Nat := max lo (min hi n)

/-- A four-byte field whose absent encoding is all ones (11.4). -/
def optLongAt (l : List Byte) (i : Nat) : Option Nat :=
  if longAt l i = 0xFFFFFFFF then none else some (longAt l i)

/-- A number as one of `n` values, none if it is `n` or more. -/
def toFin (n v : Nat) : Option (Fin n) := if h : v < n then some ⟨v, h⟩ else none

/-- Whether a bib lies in 1 to 65,534 (00 section 5.2). -/
def bibOk (bib : Nat) : Bool := 1 ≤ bib && bib ≤ Config.maxBib

/-- The reader of a channel: A on channel 0, B on channel 1 (R45). -/
def readerOf (c : Channel) : Option Reader :=
  if c.val = 0 then some .a else if c.val = 1 then some .b else none

/-- The channel of a reader (R45). -/
def channelOf : Reader → Channel
  | .a => 0
  | .b => 1

/-- A pass number field, 1 or 2 (R83). -/
def passNoOf (n : Nat) : Option PassNo :=
  if n = 1 then some .one else if n = 2 then some .two else none

/-- A received character kept if it lies in 0x20 to `last`, else '?' (R63, R123). -/
def keepChar (last : Byte) (c : Byte) : Byte :=
  if 0x20#8 ≤ c ∧ c ≤ last then c else 0x3F#8

/-- The first `k` lines of 48 characters of a payload that starts with them (R123). -/
def linesOf : Nat → List Byte → List (List Byte)
  | 0, _ => []
  | k + 1, l => (l.take 48).map (keepChar 0x7F#8) :: linesOf k (l.drop 48)

/-! ### Code fields -/

/-- The arbitration mode codes (11.2). -/
def arbModeOf (n : Nat) : Option ArbMode :=
  if n = 0 then some .fixed else if n = 1 then some .rotating else none

/-- The park channel codes: 0 to 3, or 0xFF for none; outer none is an undefined code (R21, 11.2). -/
def parkOf (n : Nat) : Option (Option Channel) :=
  if n = 0xFF then some none else (toFin 4 n).map some

/-- The feature mode codes (11.2). -/
def featureModeOf (n : Nat) : Option FeatureMode :=
  if n = 0 then some .nested else if n = 1 then some .rotating else none

/-- The leader level codes: 0 to 7, or 0xFF for off; outer none is an undefined code (R132, 11.2). -/
def leaderLevelOf (n : Nat) : Option (Option Level) :=
  if n = 0xFF then some none else (toFin 8 n).map some

/-- The display mode codes (11.2). -/
def displayModeOf (n : Nat) : Option DisplayMode :=
  if n = 0 then some .normal
  else if n = 1 then some .blank
  else if n = 2 then some .test
  else if n = 3 then some .inverse
  else none

end Sys2Proof.Machine
end

