-- ==== Sys2Proof/Machine/Flags.lean ====
section
/-! DEFINITION. The output lines and conditions that follow from the state: grant lines (R13), the busy
line (R3), the six attention conditions and the ATTN lines (R168). -/

namespace Sys2Proof.Machine

/-- Whether the grant line of channel `c` is raised (R13). -/
def State.grantLine (s : State) (c : Channel) : Bool :=
  match s.lc.grant with
  | .parked p => p == c
  | .offered p _ => p == c
  | .held p _ => p == c
  | .idle => false
  | .withdrawing _ _ => false

/-- Whether the busy line is asserted: a master drives it, or the device sends a reply burst (R3). -/
def LinkState.busy (l : LinkState) : Bool := l.masterBusy || l.replyBurst.isSome

/-- Whether an error record is empty (R9). -/
def ErrorRecord.isEmpty (e : ErrorRecord) : Bool :=
  !e.headerBad && !e.payloadBad && !e.cut && !e.wrongChannel && !e.lapsed && e.refusals == 0 &&
    e.first.isNone

/-- The mark trouble counts of a reader (R32). -/
def AttentionState.counts (a : AttentionState) : Reader → MarkCounts
  | .a => a.countsA
  | .b => a.countsB

/-- Whether the clock is RUNNING (R23). -/
def Clock.isRunning (k : Clock) : Bool :=
  match k.state with
  | .running _ => true
  | .stopped => false
  | .full => false

/-- The number of WAITING fill requests (R71). -/
def RunnerTable.waiting (t : RunnerTable) : Nat := (t.fills.filter fun e => !e.sent).length

/-- The number of SENT fill requests (R71). -/
def RunnerTable.sentCount (t : RunnerTable) : Nat := (t.fills.filter fun e => e.sent).length

/-- REPORT_WAITING: the channel's error record is not empty (R9). -/
def reportWaiting (s : State) (c : Channel) : Bool := !s.lc.errors[c].isEmpty

/-- REPLY_WAITING: the channel's reply queue holds a reply (R11). -/
def replyWaiting (s : State) (c : Channel) : Bool := !s.lc.replies[c].isEmpty

/-- CLOCK_NOT_RUNNING: the clock is STOPPED or FULL (R23). -/
def clockNotRunning (s : State) : Bool := !s.cmu.clock.isRunning

/-- MARK_TROUBLE: a reader's lost-marks or orphan-marks count is above 0 (R32). -/
def markTrouble (s : State) (c : Channel) : Bool :=
  match readerOf c with
  | some r => 0 < (s.att.counts r).lost || 0 < (s.att.counts r).orphan
  | none => false

/-- FILLS_WAITING of channel 2: a fill request is WAITING (R71). -/
def fillsWaiting (s : State) (c : Channel) : Bool := c.val == 2 && 0 < s.rt.waiting

/-- LOG_HIGH of channel 2: the log count is at or above the log threshold (R116). -/
def logHigh (s : State) (c : Channel) : Bool :=
  c.val == 2 && s.att.logThreshold ≤ s.sl.entries.length

/-- The conditions present for a channel, one bit each in the order of 11.4 (R168). -/
def present (s : State) (c : Channel) : BitVec 6 :=
  BitVec.ofBool (logHigh s c) ++ BitVec.ofBool (fillsWaiting s c) ++ BitVec.ofBool (markTrouble s c) ++
    BitVec.ofBool (clockNotRunning s) ++ BitVec.ofBool (replyWaiting s c) ++
    BitVec.ofBool (reportWaiting s c)

/-- Whether the ATTN line of a channel is asserted: a condition is present and enabled in the channel's
mask; low while RESET is asserted (R168, R171). -/
def State.attn (s : State) (c : Channel) : Bool :=
  !s.resetHeld && (present s c &&& s.att.masks[c]) != 0#6

end Sys2Proof.Machine
end

