-- ==== Sys2Proof/Machine/Splits.lean ====
section
/-! DEFINITION. Split arithmetic: wave resolution (R37), race time, pace and projection (R89 to R93), the
derivation of a record (R88), and the STALE marks and triggers (R36, R99). -/

namespace Sys2Proof.Machine

/-- Whether a wave's bib range is present and contains a bib (R37). -/
def waveContains (w : WaveEntry) (bib : Nat) : Bool :=
  match w.range with
  | some (first, last) => first ≤ bib && bib ≤ last
  | none => false

/-- The wave of a runner: the fill wave, else the lowest-numbered wave whose range contains the bib,
else none (R37). -/
def resolveWave (waves : Vector WaveEntry 8) (r : Record) : Option Wave :=
  match r.fillWave with
  | some w => some w
  | none => (List.finRange 8).find? fun w => waveContains waves[w] r.bib

/-- An upstream candidate is kept when it lies below the pass in distance and in race time (R91). -/
def candidateKept (distance time : Nat) (cand : Nat × Nat) : Bool :=
  cand.1 < distance && cand.2 < time

/-- The candidate with the largest distance; of two with the same distance the earlier in the list,
so pass 1 stands before the upstream split (R91). -/
def farthest : List (Nat × Nat) → Option (Nat × Nat)
  | [] => none
  | c :: rest =>
    match farthest rest with
    | some d => if c.1 < d.1 then some d else some c
    | none => some c

/-- The pace before its cap: the span time per 1,000 m, rounded half up (R92). -/
def exactPace (span metres : Nat) : Nat := (span * 1000 + metres / 2) / metres

/-- The projection before its cap (R93). -/
def exactProjection (time span metres remaining : Nat) : Nat :=
  time + (span * remaining + metres / 2) / metres

/-- The derived values of a pass with race time `time` at distance `distance`, from its upstream
candidates (R90 to R93). -/
def deriveSpan (courseLength distance time : Nat) (candidates : List (Nat × Nat)) : Derived :=
  let timed := { Derived.absent with raceTime := some time }
  if distance = 0 then timed
  else
    match farthest (candidates.filter (candidateKept distance time)) with
    | none => timed
    | some (du, tu) =>
      let span := time - tu
      let metres := distance - du
      let pace := exactPace span metres
      let withPace :=
        { timed with
          pace := some (min pace Config.paceCap), paceCapped := decide (Config.paceCap < pace) }
      if distance = courseLength then withPace
      else
        let proj := exactProjection time span metres (courseLength - distance)
        { withPace with
          projection := some (min proj Config.maxTick),
          projCapped := decide (Config.maxTick < proj) }

/-- The derived values of a present pass with tick `x` (R89). -/
def derivePass (waves : Vector WaveEntry 8) (inUse : Option Wave) (courseLength distance x : Nat)
    (candidates : List (Nat × Nat)) : Derived :=
  match inUse with
  | none => { Derived.absent with noWave := true }
  | some w =>
    match waves[w].gun with
    | none => { Derived.absent with noGun := true }
    | some gun =>
      if x < gun then { Derived.absent with beforeGun := true }
      else deriveSpan courseLength distance (x - gun) candidates

/-- The upstream split of a record as a list of at most one candidate (R90). -/
def upstreamCandidate (r : Record) : List (Nat × Nat) := r.upstream.toList

/-- Pass 1 as a candidate for pass 2: offered when D1 is set and its race time is present (R90). -/
def pass1Candidate (d1 : Nat) (derived1 : Derived) : List (Nat × Nat) :=
  match derived1.raceTime with
  | some t1 => if d1 = 0 then [] else [(d1, t1)]
  | none => []

/-- The derivation of a record: wave in use, then pass 1, then pass 2; STALE is cleared (R88). -/
def derive (waves : Vector WaveEntry 8) (point : PointSettings) (r : Record) : Record :=
  let inUse := resolveWave waves r
  let derived1 :=
    match r.pass1 with
    | some p =>
      derivePass waves inUse point.courseLength point.d1 p.tick (upstreamCandidate r ++ [(0, 0)])
    | none => Derived.absent
  let derived2 :=
    match r.pass2 with
    | some p =>
      derivePass waves inUse point.courseLength point.d2 p.tick
        (pass1Candidate point.d1 derived1 ++ upstreamCandidate r ++ [(0, 0)])
    | none => Derived.absent
  { r with waveInUse := inUse, derived1, derived2, stale := false }

/-- A pass of a record (R64). -/
def Record.pass (r : Record) : PassNo → Option Pass
  | .one => r.pass1
  | .two => r.pass2

/-- The derived values of a pass of a record (R64). -/
def Record.derived (r : Record) : PassNo → Derived
  | .one => r.derived1
  | .two => r.derived2

/-- The record with a pass replaced (R51, R83). -/
def Record.withPass (r : Record) : PassNo → Option Pass → Record
  | .one, p => { r with pass1 := p }
  | .two, p => { r with pass2 := p }

/-- Mark STALE the records that `named` picks (R36, R99). -/
def markStale (named : Record → Bool) (t : RunnerTable) : RunnerTable :=
  { t with slots := t.slots.map fun slot =>
      slot.map fun r => if named r then { r with stale := true } else r }

/-- A trigger: mark the named records STALE and put the pass in flight at slot 0 (R99). -/
def trigger (named : Record → Bool) (s : State) : State :=
  (s.withRt (markStale named s.rt)).withSa { position := some 0 }

/-- The records the gun trigger of wave `w` names: those whose stored wave in use is `w` (R36). -/
def gunNamed (w : Wave) (r : Record) : Bool := r.waveInUse == some w

/-- The records the range trigger names: those with no fill wave (R36). -/
def rangeNamed (r : Record) : Bool := r.fillWave.isNone

end Sys2Proof.Machine
end

