-- ==== Sys2Proof/Machine/Render.lean ====
section
/-! DEFINITION. What the board shows: displayed values (R95 to R97), the runner line template (R140), the
band lines (R134, R135), and the writing of board image lines (R155). -/

namespace Sys2Proof.Machine

/-! ### Text -/

/-- A run of spaces. -/
def spaces (n : Nat) : List Byte := List.replicate n 0x20#8

/-- The character of a decimal digit. -/
def digit (n : Nat) : Byte := BitVec.ofNat 8 (0x30 + n % 10)

/-- Two decimal digits. -/
def twoDigits (n : Nat) : List Byte := [digit (n / 10), digit n]

/-- A number in decimal, right-justified with leading spaces in `width` cells. -/
def rightDecimal : Nat → Nat → List Byte
  | 0, _ => []
  | w + 1, n => (if n < 10 then spaces w else rightDecimal w (n / 10)) ++ [digit n]

/-- A text left-justified in `width` cells, cut or padded with spaces. -/
def leftText (width : Nat) (text : List Byte) : List Byte :=
  text.take width ++ spaces (width - text.length)

/-- Seconds as h:mm:ss, at most 9:59:59 (R95). -/
def hms (seconds : Nat) : List Byte :=
  let t := min seconds 35999
  [digit (t / 3600), 0x3A#8] ++ twoDigits (t / 60 % 60) ++ [0x3A#8] ++ twoDigits (t % 60)

/-- The dashes of an absent race time, projection or band clock, -:--:-- (R95). -/
def absentTime : List Byte := [0x2D#8, 0x3A#8, 0x2D#8, 0x2D#8, 0x3A#8, 0x2D#8, 0x2D#8]

/-- A race time or projection in 7 cells, rounded up to the second (R95). -/
def timeText : Option Nat → List Byte
  | some t => hms ((t + 99) / 100)
  | none => absentTime

/-- A pace in 5 cells, rounded half up to the second, at most 59:59 (R96). -/
def paceText : Option Nat → List Byte
  | some p =>
    let t := min ((p + 50) / 100) 3599
    if t < 600 then [0x20#8, digit (t / 60), 0x3A#8] ++ twoDigits (t % 60)
    else twoDigits (t / 60) ++ [0x3A#8] ++ twoDigits (t % 60)
  | none => [0x2D#8, 0x2D#8, 0x3A#8, 0x2D#8, 0x2D#8]

/-- The band clock in 7 cells, truncated to the second; absent without a gun or before it (R97). -/
def bandClockText (clock : Nat) : Option Nat → List Byte
  | some gun => if clock < gun then absentTime else hms ((clock - gun) / 100)
  | none => absentTime

/-- "P2 " for pass 2, spaces otherwise (R134, R140). -/
def passMark : Option PassNo → List Byte
  | some .two => [0x50#8, 0x32#8, 0x20#8]
  | some .one => spaces 3
  | none => spaces 3

/-- "LEAD" (R134). -/
def leadText : List Byte := [0x4C#8, 0x45#8, 0x41#8, 0x44#8]

/-- "WAVE " and a wave's digit (R135). -/
def waveText (w : Wave) : List Byte :=
  [0x57#8, 0x41#8, 0x56#8, 0x45#8, 0x20#8, digit w.val]

/-- The derived values of the pass rendered; absent values when none is (R134). -/
def shownDerived (r : Record) : Option PassNo → Derived
  | some p => r.derived p
  | none => Derived.absent

/-- Cells 0 to 43 of the runner line template (R140): bib, name, race time, pace, projection. -/
def runnerText (r : Record) (pass : Option PassNo) : List Byte :=
  let d := shownDerived r pass
  rightDecimal 5 r.bib ++ spaces 1 ++ leftText 16 (r.name.getD []) ++ spaces 1 ++
    timeText d.raceTime ++ spaces 1 ++ paceText d.pace ++ spaces 1 ++ timeText d.projection

/-- The runner line template (R140). -/
def runnerLine (r : Record) (pass : Option PassNo) : List Byte :=
  runnerText r pass ++ spaces 1 ++ passMark pass

/-- A text as cells with one emphasis flag. -/
def cellsOf (emphasis : Bool) (text : List Byte) : List Cell :=
  text.map fun c => { char := c, emphasis }

/-- The record of a slot a reference names. Every referenced slot is occupied (R66); a slot that is not
renders by bib alone (DESIGN CHOICE, log 16). -/
def RunnerTable.recordOf (t : RunnerTable) (slot : Slot) (bib : Nat) : Record :=
  t.slots[slot].getD (Record.fresh bib .unfilled)

/-! ### Writing the board image -/

/-- The board image with consecutive lines replaced from line `first` on (R155). -/
def writeRows (first : Nat) (rows : List (List Cell)) (image : List (List Cell)) :
    List (List Cell) :=
  image.take first ++ rows ++ image.drop (first + rows.length)

/-- Write consecutive lines of the board image. -/
def State.writeLines (s : State) (first : Nat) (rows : List (List Cell)) : State :=
  s.withBi { s.bi with image := writeRows first rows s.bi.image }

/-! ### The band (R134, R135) -/

/-- The pass a runner or leader feature renders: pass 2 if held, else pass 1, else none (R134). R84 has a band
that shows a cleared pass rendered with absent values; after pass 2 is cleared with pass 1 held the model
follows R134 and renders pass 1 with its values (DESIGN CHOICE, log 21). -/
def bandPass (r : Record) : Option PassNo :=
  if r.pass2.isSome then some .two else if r.pass1.isSome then some .one else none

/-- The first of the band lines of a runner or leader feature when B is 2 or more (R134). -/
def featureLine0 (r : Record) (kind : FeatureKind) : List Byte :=
  rightDecimal 5 r.bib ++ spaces 1 ++ leftText 20 (r.name.getD []) ++ spaces 18 ++
    (match kind with
     | .leader => leadText
     | .runner => spaces 4)

/-- The second of the band lines of a runner or leader feature when B is 2 or more (R134). -/
def featureLine1 (r : Record) : List Byte :=
  let d := shownDerived r (bandPass r)
  spaces 23 ++ timeText d.raceTime ++ spaces 1 ++ paceText d.pace ++ spaces 1 ++
    timeText d.projection ++ spaces 1 ++ passMark (bandPass r)

/-- The band line of a runner or leader feature when B is 1 (R134). -/
def featureSingleLine (r : Record) (kind : FeatureKind) : List Byte :=
  match kind with
  | .leader => runnerText r (bandPass r) ++ leadText
  | .runner => runnerLine r (bandPass r)

/-- The band lines of a runner or leader feature, every cell emphasised (R134). -/
def featureRows (height : Nat) (r : Record) (kind : FeatureKind) : List (List Cell) :=
  match height with
  | 0 => []
  | 1 => [cellsOf true (featureSingleLine r kind)]
  | n + 2 =>
    cellsOf true (featureLine0 r kind) :: cellsOf true (featureLine1 r) ::
      List.replicate n (cellsOf true (spaces 48))

/-- The band lines of a message, emphasis clear (R135). -/
def messageRows (height : Nat) (lines : List (List Byte)) : List (List Cell) :=
  (lines.take height).map (cellsOf false) ++
    List.replicate (height - lines.length) (cellsOf false (spaces 48))

/-- Idle band line 0: the clock wave's name and the band clock (R135). -/
def idleLine0 (s : State) : List Cell :=
  cellsOf false
    (waveText s.bi.clockWave ++ spaces 35 ++
      bandClockText s.cmu.clock.value s.cmu.waves[s.bi.clockWave].gun)

/-- The idle band lines (R135). -/
def idleRows (s : State) : List (List Cell) :=
  match s.bi.bandHeight with
  | 0 => []
  | n + 1 => idleLine0 s :: List.replicate n (cellsOf false (spaces 48))

/-- The lines stored for a message; none for an EMPTY one. -/
def FeatureState.messageLines (f : FeatureState) (m : Fin 8) : List (List Byte) :=
  match f.messages[m] with
  | some msg => msg.lines
  | none => []

/-- The B band lines (R134, R135). -/
def bandRows (s : State) : List (List Cell) :=
  match s.fc.shown with
  | none => idleRows s
  | some f =>
    match f.ref with
    | .message m => messageRows s.bi.bandHeight (s.fc.messageLines m)
    | .runner e => featureRows s.bi.bandHeight (s.rt.recordOf e.slot e.bib) e.kind

/-- Render the band whole: write board lines 0 to B - 1 (R134, R135). -/
def renderBand (s : State) : State := s.writeLines 0 (bandRows s)

/-- Render band line 0 again while the idle lines are shown (R135). -/
def renderIdleClock (s : State) : State :=
  if s.fc.shown.isNone ∧ 1 ≤ s.bi.bandHeight then s.writeLines 0 [idleLine0 s] else s

/-! ### The list lines (R139, R140) -/

/-- The cells of a buffer: its rendered cells, or spaces when EMPTY (R139). -/
def bufferCells : Option ListLine → List Cell
  | some line => line.cells
  | none => blankLine

/-- The number K of list lines (R139). -/
def ListState.size (l : ListState) : Nat := l.buffers.length

/-- The buffer that list line `i` shows (R139). -/
def ListState.bufferAt (l : ListState) (i : Nat) : Option ListLine :=
  (l.buffers.getD ((l.top + i) % l.size) none)

/-- The K list lines from the top (R139). -/
def listRows (l : ListState) : List (List Cell) :=
  (List.range l.size).map fun i => bufferCells (l.bufferAt i)

/-- Write all K list lines to board lines B to N - 1 (R139). -/
def writeList (s : State) : State := s.writeLines s.bi.bandHeight (listRows s.ls)

/-- Write the board line that shows buffer `j` (R139). -/
def writeBuffer (j : Nat) (s : State) : State :=
  s.writeLines (s.bi.bandHeight + (j + s.ls.size - s.ls.top) % s.ls.size)
    [bufferCells (s.ls.buffers.getD j none)]

/-- A list line rendered for a slot, bib and pass from the record as it stands (R140). -/
def renderedLine (t : RunnerTable) (slot : Slot) (bib : Nat) (pass : PassNo) (shownAt : Nat) :
    ListLine :=
  { slot, bib, pass, shownAt, cells := cellsOf false (runnerLine (t.recordOf slot bib) (some pass)) }

end Sys2Proof.Machine
end

