-- ==== Sys2Proof/WellFormed.lean ====
section
/-! DEFINITION. Which commands can arise: a packet row's header passes the header check (it would be a
HEADER_BAD otherwise), an UNKNOWN_KIND's code is undefined, a HEADER_BAD's header is bad, and the bytes
after the last whole packet are not a whole packet themselves. -/

namespace Sys2Proof

/-- A request row's packet: its header, with the row's own kind code, passes R5 step 1. -/
def packetWf (kind : Byte) (p : Packet) : Bool :=
  decide ((Machine.bodyPayload p.body).length ≤ Config.maxPayload) &&
    Machine.headerOk (Machine.packetHeader kind p)

/-- The first five bytes of a list as a header. -/
def headerOfBytes (l : List Byte) : Header :=
  { kind := l.getD 0 0, control := l.getD 1 0, param := l.getD 2 0 ++ l.getD 3 0, check := l.getD 4 0 }

/-- Bytes that do not yet make a whole packet: fewer than a header, or a good long header whose
payload or payload check is not complete (R2, R5). -/
def tailWf (tail : List Byte) : Bool :=
  tail.length < 5 ||
    (let h := headerOfBytes tail
     Machine.headerOk h && Machine.headerIsLong h && tail.length < 5 + h.param.toNat + 2)

/-- Whether a command is one that can arise. -/
def Instr.wf : Instr → Bool
  | .powerOn => true
  | .resetAsserted => true
  | .openPattern => true
  | .normalClose tail => tailWf tail
  | .turnClose tail => tailWf tail
  | .replyBurstEnd => true
  | .cut tail => tailWf tail
  | .headerBad h => !Machine.headerOk h
  | .unknownKind k p => (Machine.kindOfCode k).isNone && packetWf k p
  | .requestRaised _ => true
  | .requestDropped _ => true
  | .busyRelease => true
  | .offerTimerExpiry => true
  | .tenureReached => true
  | .withdrawalGraceEnd => true
  | .holdLimit => true
  | .crossingReport p => packetWf (Machine.kindCode .crossingReport) p
  | .timedCrossingReport p => packetWf (Machine.kindCode .timedCrossingReport) p
  | .clockSet p => packetWf (Machine.kindCode .clockSet) p
  | .clockStop p => packetWf (Machine.kindCode .clockStop) p
  | .clockTrim p => packetWf (Machine.kindCode .clockTrim) p
  | .clockAdvance => true
  | .markPulse _ => true
  | .markExpiry _ _ => true
  | .waveSet p => packetWf (Machine.kindCode .waveSet) p
  | .gunClear p => packetWf (Machine.kindCode .gunClear) p
  | .passVisit => true
  | .pointSetup p => packetWf (Machine.kindCode .pointSetup) p
  | .rosterFill p => packetWf (Machine.kindCode .rosterFill) p
  | .fetchFills p => packetWf (Machine.kindCode .fetchFills) p
  | .fillTimeout => true
  | .pin p => packetWf (Machine.kindCode .pin) p
  | .unpin p => packetWf (Machine.kindCode .unpin) p
  | .readRecord p => packetWf (Machine.kindCode .readRecord) p
  | .correctPass p => packetWf (Machine.kindCode .correctPass) p
  | .tableFlush p => packetWf (Machine.kindCode .tableFlush) p
  | .collect p => packetWf (Machine.kindCode .collect) p
  | .release p => packetWf (Machine.kindCode .release) p
  | .postMessage p => packetWf (Machine.kindCode .postMessage) p
  | .deleteMessage p => packetWf (Machine.kindCode .deleteMessage) p
  | .endFeature p => packetWf (Machine.kindCode .endFeature) p
  | .featureSetup p => packetWf (Machine.kindCode .featureSetup) p
  | .dwellExpiry => true
  | .minDwellReached => true
  | .lineExpiry _ => true
  | .listTiming p => packetWf (Machine.kindCode .listTiming) p
  | .raceClear p => packetWf (Machine.kindCode .raceClear) p
  | .boardLayout p => packetWf (Machine.kindCode .boardLayout) p
  | .displayMode p => packetWf (Machine.kindCode .displayMode) p
  | .brightness p => packetWf (Machine.kindCode .brightness) p
  | .dutyTable p => packetWf (Machine.kindCode .dutyTable) p
  | .panelWindow p => packetWf (Machine.kindCode .panelWindow) p
  | .scanPeriod p => packetWf (Machine.kindCode .scanPeriod) p
  | .scanStart => true
  | .frameSent => true
  | .readLines p => packetWf (Machine.kindCode .readLines) p
  | .arbitrationSetup p => packetWf (Machine.kindCode .arbitrationSetup) p
  | .status p => packetWf (Machine.kindCode .status) p
  | .attentionMask p => packetWf (Machine.kindCode .attentionMask) p
  | .channelReset p => packetWf (Machine.kindCode .channelReset) p
  | .hold p => packetWf (Machine.kindCode .hold) p
  | .releaseHold p => packetWf (Machine.kindCode .releaseHold) p

end Sys2Proof
end

