-- ==== Sys2Proof/Machine/Ops.lean ====
section
/-! DEFINITION. Shared operations: error records and reply queues (R9, R11), the checks a packet passes on
its way to its owner block (R5, R7), slots, holds, recency and allocation in the runner table (chapter 4),
and the re-rendering of a slot where it is shown (R77, R101). -/

namespace Sys2Proof.Machine

/-- A count that rises by 1 and stays at its cap once it has reached it. -/
def satInc (cap n : Nat) : Nat := min cap (n + 1)

/-! ### Error records and reply queues -/

/-- Change the error record of a channel. -/
def State.updError (s : State) (c : Channel) (f : ErrorRecord → ErrorRecord) : State :=
  s.withLc { s.lc with errors := s.lc.errors.set c (f s.lc.errors[c]) }

/-- Count a refusal and keep the first one (R9). -/
def ErrorRecord.refusal (e : ErrorRecord) (kind : Byte) (reason : Reason) : ErrorRecord :=
  { e with
    refusals := satInc Config.byteCountCap e.refusals
    first := match e.first with
      | some f => some f
      | none => some (kind, reason) }

/-- Record a refused request in the channel's error record (R9). -/
def State.refuse (s : State) (c : Channel) (kind : Byte) (reason : Reason) : State :=
  s.updError c fun e => e.refusal kind reason

/-- Set HEADER_BAD in a channel's error record (R9). -/
def State.flagHeaderBad (s : State) (c : Channel) : State := s.updError c fun e => { e with headerBad := true }

/-- Set PAYLOAD_BAD in a channel's error record (R9). -/
def State.flagPayloadBad (s : State) (c : Channel) : State := s.updError c fun e => { e with payloadBad := true }

/-- Set CUT in a channel's error record (R9). -/
def State.flagCut (s : State) (c : Channel) : State := s.updError c fun e => { e with cut := true }

/-- Set WRONG_CHANNEL in a channel's error record (R9). -/
def State.flagWrongChannel (s : State) (c : Channel) : State :=
  s.updError c fun e => { e with wrongChannel := true }

/-- Set LAPSED in a channel's error record (R9, R15). -/
def State.flagLapsed (s : State) (c : Channel) : State := s.updError c fun e => { e with lapsed := true }

/-- Set the reply queue of a channel. -/
def State.withReplies (s : State) (c : Channel) (q : List Reply) : State :=
  s.withLc { s.lc with replies := s.lc.replies.set c q }

/-- Add a reply to the tail of a channel's reply queue (R11). -/
def State.enqueueReply (s : State) (c : Channel) (r : Reply) : State :=
  s.withReplies c (s.lc.replies[c] ++ [r])

/-! ### The path of a packet to its owner block -/

/-- The outcome of the checks of R5. -/
inductive PacketError where
  | headerBad | wrongChannel | unknownKind | notPermitted | payloadBad
  deriving DecidableEq, Repr

/-- Steps 1 to 4 of R5, on the header, for a burst of channel `c`; none if they pass. -/
def headerError (h : Header) (c : Channel) : Option PacketError :=
  if !headerOk h then some .headerBad
  else if headerChannel h ≠ c then some .wrongChannel
  else
    match kindOfCode h.kind with
    | none => some .unknownKind
    | some k => if kindPermitted k c then none else some .notPermitted

/-- The five checks of R5 on a whole packet; none if it is a checked request. -/
def packetError (kind : Byte) (p : Packet) (c : Channel) : Option PacketError :=
  match headerError (packetHeader kind p) c with
  | some e => some e
  | none => if payloadOk p.body then none else some .payloadBad

/-- What a failed check of R5 leaves: a flag or a counted refusal in the burst's channel's record, and
after HEADER_BAD the rest of the burst is ignored (R6). -/
def packetErrorEffect (e : PacketError) (kind : Byte) (c : Channel) (s : State) : State :=
  match e with
  | .headerBad => (s.withLc { s.lc with burst := some (.taken c true) }).flagHeaderBad c
  | .wrongChannel => s.flagWrongChannel c
  | .unknownKind => s.refuse c kind .unknownKind
  | .notPermitted => s.refuse c kind .notPermitted
  | .payloadBad => s.flagPayloadBad c

/-- The two checks of R7 on a checked request; none if it goes to its owner block. -/
def requestRefusal (k : Kind) (p : Packet) (c : Channel) (s : State) : Option Reason :=
  if !formOk k p.body then some .badLength
  else if kindAsking k ∧ Config.replyCapacity ≤ s.lc.replies[c].length then some .replyFull
  else none

/-- The channel whose packets are being assembled: the channel of a taken burst whose framing is not
lost, while RESET is not asserted (R1, R6, R171). -/
def State.hearing (s : State) : Option Channel :=
  if s.resetHeld then none
  else
    match s.lc.burst with
    | some (.taken c false) => some c
    | some (.taken _ true) => none
    | some (.afterGrace _) => none
    | some .unheard => none
    | none => none

/-- What an owner block answers to a request: carried out, refused with a reason (with the state the
refusal leaves, R45), or the model's stop. -/
inductive Answer where
  | done (s : State)
  | refused (reason : Reason) (s : State)
  | stop (f : Fault)

/-- The path of a whole packet of kind `k`: ignored outside a heard burst (R1), checked as R5 and R7 say,
then executed by its owner (R7), a refusal being recorded (R9). -/
def receive (k : Kind) (p : Packet) (owner : Channel → State → Answer) (s : State) :
    Host.Outcome State Fault Refusal :=
  match s.hearing with
  | none => .next s
  | some c =>
    match packetError (kindCode k) p c with
    | some e => .next (packetErrorEffect e (kindCode k) c s)
    | none =>
      match requestRefusal k p c s with
      | some reason => .next (s.refuse c (kindCode k) reason)
      | none =>
        match owner c s with
        | .done t => .next t
        | .refused reason t => .next (t.refuse c (kindCode k) reason)
        | .stop f => .fault f

/-- An event at the device: nothing happens while RESET is asserted (R171). -/
def event (s : State) (effect : State → State) : Host.Outcome State Fault Refusal :=
  if s.resetHeld then .next s else .next (effect s)

/-! ### Marks and counts -/

/-- The marks of a reader. -/
def CmuState.marks (x : CmuState) : Reader → ReaderMarks
  | .a => x.marksA
  | .b => x.marksB

/-- Replace the marks of a reader. -/
def CmuState.withMarks (x : CmuState) (r : Reader) (m : ReaderMarks) : CmuState :=
  match r with
  | .a => { x with marksA := m }
  | .b => { x with marksB := m }

/-- Replace the mark trouble counts of a reader. -/
def AttentionState.withCounts (a : AttentionState) (r : Reader) (m : MarkCounts) : AttentionState :=
  match r with
  | .a => { a with countsA := m }
  | .b => { a with countsB := m }

/-! ### The runner table -/

/-- The slot that holds a bib, if one does (R62). -/
def RunnerTable.lookup (t : RunnerTable) (bib : Nat) : Option Slot :=
  (List.finRange 256).find? fun i =>
    match t.slots[i] with
    | some r => r.bib == bib
    | none => false

/-- Store a record in a slot. -/
def RunnerTable.put (t : RunnerTable) (i : Slot) (r : Record) : RunnerTable :=
  { t with slots := t.slots.set i (some r) }

/-- Create a reference to a slot: its hold count rises by 1 (R66). -/
def RunnerTable.hold (t : RunnerTable) (i : Slot) : RunnerTable :=
  { t with holds := t.holds.set i (t.holds[i] + 1) }

/-- Release a reference to a slot: its hold count falls by 1 (R66). -/
def RunnerTable.release (t : RunnerTable) (i : Slot) : RunnerTable :=
  { t with holds := t.holds.set i (t.holds[i] - 1) }

/-- Whether a slot is held (R66). -/
def RunnerTable.isHeld (t : RunnerTable) (i : Slot) : Bool := 0 < t.holds[i]

/-- Whether a slot holds a pinned record (R67). -/
def RunnerTable.isPinned (t : RunnerTable) (i : Slot) : Bool :=
  match t.slots[i] with
  | some r => r.pin.isSome
  | none => false

/-- Whether a slot is OCCUPIED (R62). -/
def RunnerTable.isOccupied (t : RunnerTable) (i : Slot) : Bool := t.slots[i].isSome

/-- The number of occupied slots (R62). -/
def RunnerTable.occupiedCount (t : RunnerTable) : Nat :=
  ((List.finRange 256).filter t.isOccupied).length

/-- The number of pinned slots (R67). -/
def RunnerTable.pinnedCount (t : RunnerTable) : Nat :=
  ((List.finRange 256).filter t.isPinned).length

/-- Move a slot to the front of the recency order (R65). -/
def RunnerTable.toFront (t : RunnerTable) (i : Slot) : RunnerTable :=
  { t with order := i :: t.order.erase i }

/-- The victim: the first slot from the back of the recency order that is neither pinned nor held (R68). -/
def RunnerTable.victim (t : RunnerTable) : Option Slot :=
  t.order.reverse.find? fun i => !t.isPinned i && !t.isHeld i

/-- Remove the fill request for a bib, if the list has one (R75). -/
def RunnerTable.withdraw (t : RunnerTable) (bib : Nat) : RunnerTable :=
  { t with fills := t.fills.filter fun e => e.bib ≠ bib }

/-- Evict the record of a slot, with its fill request (R69). -/
def RunnerTable.evict (t : RunnerTable) (i : Slot) : RunnerTable :=
  match t.slots[i] with
  | some r => { t.withdraw r.bib with slots := t.slots.set i none }
  | none => t

/-- Allocate a victim slot for a new record: evict, store, move to the front (R70). -/
def RunnerTable.allocate (t : RunnerTable) (r : Record) : Option (Slot × RunnerTable) :=
  match t.victim with
  | some i => some (i, ((t.evict i).put i r).toFront i)
  | none => none

/-- Enter a fill request for a new bib at the tail of the list (R72). -/
def RunnerTable.enterFill (t : RunnerTable) (bib : Nat) (slot : Slot) : RunnerTable :=
  { t with fills := t.fills ++ [{ bib, slot, sent := false, offers := 0, sentAt := none }] }

/-- Derive the record of a slot (R88). -/
def State.deriveSlot (s : State) (i : Slot) : State :=
  match s.rt.slots[i] with
  | some r => s.withRt (s.rt.put i (derive s.cmu.waves s.ci r))
  | none => s

/-! ### Re-rendering a slot where it is shown -/

/-- The first buffer that shows a slot (R139). -/
def ListState.lineOf (l : ListState) (i : Slot) : Option Nat :=
  l.buffers.findIdx? fun b =>
    match b with
    | some line => line.slot == i
    | none => false

/-- Render buffer `j` again from the record, for pass `pass`, keeping its place and shown time (R141,
R144). -/
def rerenderBuffer (j : Nat) (line : ListLine) (pass : PassNo) (s : State) : State :=
  let fresh := renderedLine s.rt line.slot line.bib pass line.shownAt
  writeBuffer j (s.withLs { s.ls with buffers := s.ls.buffers.set j (some fresh) })

/-- Re-render the list line that shows a slot, if one does (R141). -/
def rerenderLine (i : Slot) (s : State) : State :=
  match s.ls.lineOf i with
  | some j =>
    match s.ls.buffers.getD j none with
    | some line => rerenderBuffer j line line.pass s
    | none => s
  | none => s

/-- Whether a feature is a runner or leader feature for a slot. -/
def Feature.isFor (f : Feature) (i : Slot) : Bool :=
  match f.ref with
  | .runner e => e.slot == i
  | .message _ => false

/-- Re-render the band if the shown feature is for a slot (R136). -/
def rerenderBand (i : Slot) (s : State) : State :=
  match s.fc.shown with
  | some f => if f.isFor i then renderBand s else s
  | none => s

/-- Re-render a slot where it is shown: its list line and the band (R59, R77, R101). -/
def rerender (i : Slot) (s : State) : State := rerenderBand i (rerenderLine i s)

end Sys2Proof.Machine
end

