-- ==== Sys2Proof/Machine/Arbiter.lean ====
section
/-! DEFINITION. The arbiter's shared operations (section 1.5): the grant decision (R14), entering and
leaving WITHDRAWING (R15, R18, R19), the withdrawal test (R17), the end of an exchange (R18), and what the
bytes after the last whole packet of a burst bring at its end (R2, R5). -/

namespace Sys2Proof.Machine

/-- The channels in the order in which the decision looks for a requester (R14). -/
def decisionOrder (mode : ArbMode) (last : Channel) : List Channel :=
  match mode with
  | .fixed => [0, 1, 2, 3]
  | .rotating => [last + 1, last + 2, last + 3, last]

/-- The winner of a grant decision, if a request line is raised (R14). -/
def winner (l : LinkState) : Option Channel :=
  (decisionOrder l.mode l.lastGranted).find? fun c => l.requestLine[c]

/-- The grant decision at local time `now` (R14). -/
def grantDecision (now : Nat) (l : LinkState) : LinkState :=
  if l.busy then { l with grant := .idle }
  else
    match winner l with
    | some c => { l with grant := .offered c now, lastGranted := c }
    | none =>
      match l.park with
      | some p => { l with grant := .parked p }
      | none => { l with grant := .idle }

/-- WITHDRAWING ends when the busy line is released and no reply burst is sent; a grant decision follows
(R19). On a free line it ends at once, so that no burst opens in it after an offer lapse unless one was already
on the line, whatever R15 says of a burst after the lapse (DESIGN CHOICE, log 20). -/
def settle (now : Nat) (l : LinkState) : LinkState :=
  match l.grant with
  | .withdrawing _ _ => if l.busy then l else grantDecision now l
  | .idle => l
  | .parked _ => l
  | .offered _ _ => l
  | .held _ _ => l

/-- Lower the grant line of `c`, end any hold, enter WITHDRAWING, and leave it at once if the line is
free (R15 to R19; after an offer lapse a DESIGN CHOICE, log 20). -/
def withdraw (now : Nat) (c : Channel) (graceFrom : Option Nat) (l : LinkState) : LinkState :=
  settle now { l with grant := .withdrawing c graceFrom, holdFrom := none }

/-- Whether a channel other than `c` raises its request line (R17). -/
def othersRequest (l : LinkState) (c : Channel) : Bool :=
  (List.finRange 4).any fun d => d != c && l.requestLine[d]

/-- Whether the three withdrawal conditions are all true (R17). -/
def mustWithdraw (now : Nat) (l : LinkState) : Bool :=
  match l.grant with
  | .held c tenureFrom =>
    othersRequest l c && tenureFrom + Config.tenureLimit ≤ now && l.holdFrom.isNone
  | .idle => false
  | .parked _ => false
  | .offered _ _ => false
  | .withdrawing _ _ => false

/-- The withdrawal test: withdraw with a grace when the three conditions hold (R17). -/
def withdrawalTest (now : Nat) (l : LinkState) : LinkState :=
  match l.grant with
  | .held c _ => if mustWithdraw now l then withdraw now c (some now) l else l
  | .idle => l
  | .parked _ => l
  | .offered _ _ => l
  | .withdrawing _ _ => l

/-- The end of an exchange: a holder whose request line is low loses its grant (R18). -/
def endExchange (now : Nat) (l : LinkState) : LinkState :=
  match l.grant with
  | .held c _ => if l.requestLine[c] then l else withdraw now c none l
  | .idle => l
  | .parked _ => l
  | .offered _ _ => l
  | .withdrawing _ _ => l

/-- The hold ends in HELD(c) of the holder `c`, and the withdrawal conditions are tested (R20). -/
def endHold (now : Nat) (c : Channel) (l : LinkState) : LinkState :=
  match l.grant with
  | .held d _ =>
    if d = c ∧ l.holdFrom.isSome then withdrawalTest now { l with holdFrom := none } else l
  | .idle => l
  | .parked _ => l
  | .offered _ _ => l
  | .withdrawing _ _ => l

/-- Apply an operation of the arbiter at the present local time. -/
def State.arbiter (s : State) (op : Nat → LinkState → LinkState) : State :=
  s.withLc (op s.localTime s.lc)

/-- Whether bytes after the last whole packet leave a packet that is only partly received. -/
def tailCut (tail : List Byte) (c : Channel) : Bool :=
  !tail.isEmpty &&
    (tail.length < 5 || headerError (headerOfBytes tail) c != some .headerBad)

/-- What the bytes after the last whole packet bring: a whole header among them has been checked by steps
1 to 4 of R5 ("Steps 2 to 4 decide on the header"), and what it decided is recorded (DEDUCED, log 5). -/
def tailHeader (tail : List Byte) (c : Channel) (s : State) : State :=
  if tail.length < 5 then s
  else
    match headerError (headerOfBytes tail) c with
    | some e => packetErrorEffect e (headerOfBytes tail).kind c s
    | none => s

/-- The link errors of a taken burst that ends with a close: a packet only partly received is discarded
and CUT is set (R2). -/
def closeErrors (tail : List Byte) (c : Channel) (s : State) : State :=
  let s' := tailHeader tail c s
  if tailCut tail c then s'.flagCut c else s'

/-- No burst is open on the line. -/
def LinkState.closeBurst (l : LinkState) : LinkState := { l with burst := none }

end Sys2Proof.Machine
end

