-- ==== Sys2Proof/Machine/ListOps.lean ====
section
/-! DEFINITION. The list controller's shared operations: eligibility and staleness (R143), drops (R147),
insertion (R145), the head test (R146), arrivals (R144) and line expiry (R149). -/

namespace Sys2Proof.Machine

/-- An entry is eligible once the clock has reached its crossing tick plus the lead delay (R143). -/
def ListState.eligible (l : ListState) (clock : Nat) (e : QueueEntry) : Bool :=
  e.tick + l.leadDelay ≤ clock

/-- An entry is stale once the clock is beyond its crossing tick plus lead delay plus age limit (R143). -/
def ListState.staleEntry (l : ListState) (clock : Nat) (e : QueueEntry) : Bool :=
  e.tick + l.leadDelay + l.ageLimit < clock

/-- The number of the bottom buffer (R139). -/
def ListState.bottom (l : ListState) : Nat := (l.top + l.size - 1) % l.size

/-- The bottom buffer may be recycled: it is EMPTY, or has been SHOWN for the min dwell (R145). -/
def ListState.bottomReady (l : ListState) (now : Nat) : Bool :=
  match l.buffers.getD l.bottom none with
  | some line => line.shownAt + l.minDwell ≤ now
  | none => true

/-- Release the slot of a SHOWN buffer (R66). -/
def releaseLine (t : RunnerTable) : Option ListLine → RunnerTable
  | some line => t.release line.slot
  | none => t

/-- Drop the head entry of the board queue: its hold is released and the drop is counted (R144, R147). -/
def dropHead (e : QueueEntry) (rest : List QueueEntry) (s : State) : State :=
  (s.withRt (s.rt.release e.slot)).withLs
    { s.ls with queue := rest, drops := satInc Config.halfCountCap s.ls.drops }

/-- Insert the head entry on the top list line: the ring turns by one and the bottom buffer is recycled;
the entry's hold passes to the buffer (R145). -/
def insertHead (e : QueueEntry) (rest : List QueueEntry) (s : State) : State :=
  let top := s.ls.bottom
  let table := releaseLine s.rt (s.ls.buffers.getD top none)
  let line := renderedLine table e.slot e.bib e.pass s.localTime
  writeList
    ((s.withRt table).withLs
      { s.ls with top, buffers := s.ls.buffers.set top (some line), queue := rest })

/-- The head test, at most `n` drops and insertions (R146). -/
def headTestSteps : Nat → State → State
  | 0, s => s
  | n + 1, s =>
    match s.ls.queue with
    | [] => s
    | e :: rest =>
      if s.ls.staleEntry s.cmu.clock.value e then headTestSteps n (dropHead e rest s)
      else if s.ls.eligible s.cmu.clock.value e && s.ls.bottomReady s.localTime then
        headTestSteps n (insertHead e rest s)
      else s

/-- The head test (R146). Each drop or insertion takes one entry from the queue, so its length bounds
the run. -/
def headTest (s : State) : State := headTestSteps s.ls.queue.length s

/-- A runner arrives at the list controller with a pass and a crossing tick (R144). -/
def arrive (slot : Slot) (bib : Nat) (pass : PassNo) (tick : Nat) (s : State) : State :=
  match s.ls.lineOf slot with
  | some j =>
    match s.ls.buffers.getD j none with
    | some line => rerenderBuffer j line pass s
    | none => s
  | none =>
    let entry : QueueEntry := { slot, bib, pass, tick }
    if s.ls.queue.any fun e => e.slot == slot then
      let s' := s.withLs { s.ls with
        queue := s.ls.queue.map fun e => if e.slot = slot then { e with pass, tick } else e }
      match s.ls.queue with
      | e :: _ => if e.slot = slot then headTest s' else s'
      | [] => s'
    else
      match s.ls.queue with
      | [] => headTest ((s.withLs { s.ls with queue := [entry] }).withRt (s.rt.hold slot))
      | e :: rest =>
        if Config.boardQueueCapacity ≤ s.ls.queue.length then
          let s' := dropHead e rest s
          headTest ((s'.withLs { s'.ls with queue := s'.ls.queue ++ [entry] }).withRt
            (s'.rt.hold slot))
        else
          (s.withLs { s.ls with queue := s.ls.queue ++ [entry] }).withRt (s.rt.hold slot)

/-- Whether buffer `j` is SHOWN and has reached the line expiry (R149). -/
def ListState.expired (l : ListState) (now j : Nat) : Bool :=
  match l.buffers.getD j none with
  | some line => l.lineExpiry ≠ 0 && line.shownAt + l.lineExpiry ≤ now
  | none => false

/-- Empty buffer `j`: it becomes EMPTY, its hold is released and its board line is written as spaces
(R149). -/
def emptyBuffer (j : Nat) (s : State) : State :=
  writeBuffer j
    ((s.withRt (releaseLine s.rt (s.ls.buffers.getD j none))).withLs
      { s.ls with buffers := s.ls.buffers.set j none })

/-- Expire each of the first `n` buffers that has reached the line expiry (R151). -/
def expireLines : Nat → State → State
  | 0, s => s
  | n + 1, s =>
    let s' := expireLines n s
    if s'.ls.expired s'.localTime n then emptyBuffer n s' else s'

/-- Every buffer becomes EMPTY and its hold is released; K becomes `size` and the top offset 0 (R152). -/
def emptyList (size : Nat) (s : State) : State :=
  (s.withRt (s.ls.buffers.foldl releaseLine s.rt)).withLs
    { s.ls with buffers := List.replicate size none, top := 0 }

/-- What every change of the clock's value brings: the band clock is rendered again while idle (R135) and
the head test is made (R146). -/
def clockValueChanged (s : State) : State := headTest (renderIdleClock s)

end Sys2Proof.Machine
end

