-- ==== Sys2Proof/Machine/BandOps.lean ====
section
/-! DEFINITION. The feature controller's shared operations: candidates and priority (R125, R126), selection
(R127), preemption (R128), endings (R130), feature requests (R120). -/

namespace Sys2Proof.Machine

/-- A candidate: a WAITING message or the oldest entry of a runner queue (R125). -/
inductive Candidate where
  | message (m : Fin 8)
  | entry (e : FeatureEntry)
  deriving DecidableEq, Repr

/-- Whether a message is WAITING at a level (R125). -/
def waitingAt (k : Level) : Option Message → Bool
  | some msg => msg.state == .waiting && msg.level == k
  | none => false

/-- The first candidate of a level: its WAITING messages in order of posting place, then its runner
queue, oldest first (R125). -/
def FeatureState.firstCandidate (f : FeatureState) (k : Level) : Option Candidate :=
  match f.posting.find? fun m => waitingAt k f.messages[m] with
  | some m => some (.message m)
  | none => f.queues[k].head?.map .entry

/-- Whether a level is masked (R125, R133). -/
def FeatureState.masked (f : FeatureState) (k : Level) : Bool := f.mask.getLsbD k.val

/-- The first eligible candidate of a level; a masked level has none (R125). -/
def FeatureState.eligibleAt (f : FeatureState) (k : Level) : Option Candidate :=
  if f.masked k then none else f.firstCandidate k

/-- The levels by priority, highest first (R126). -/
def FeatureState.priority (f : FeatureState) : List Level :=
  match f.mode with
  | .nested => List.finRange 8
  | .rotating => 0 :: f.rotation

/-- The highest-priority eligible candidate, with its level (R126). -/
def FeatureState.best (f : FeatureState) : Option (Level × Candidate) :=
  f.priority.findSome? fun k => (f.eligibleAt k).map fun c => (k, c)

/-- Give a message a state, if it is not EMPTY (R122). -/
def FeatureState.markMessage (f : FeatureState) (m : Fin 8) (st : MessageState) : FeatureState :=
  match f.messages[m] with
  | some msg => { f with messages := f.messages.set m (some { msg with state := st }) }
  | none => f

/-- Give the message a feature refers to a state; a runner or leader feature has none (R127, R128). -/
def FeatureState.markRef (f : FeatureState) (r : FeatureRef) (st : MessageState) : FeatureState :=
  match r with
  | .message m => f.markMessage m st
  | .runner _ => f

/-- The dwell a message is shown with: held for a duration of 0, else 1,000 ms a second (R127). -/
def messageDwell (duration : Nat) : Option Nat :=
  if duration = 0 then none else some (1000 * duration)

/-- The dwell of a stored message. -/
def FeatureState.dwellOf (f : FeatureState) (m : Fin 8) : Option Nat :=
  match f.messages[m] with
  | some msg => messageDwell msg.duration
  | none => none

/-- Show a candidate at its level with its full dwell (R127, case 3). -/
def FeatureState.showCandidate (f : FeatureState) (k : Level) : Candidate → FeatureState
  | .message m =>
    { f.markMessage m .shown with
      shown := some { level := k, ref := .message m, dwell := f.dwellOf m } }
  | .entry e =>
    { f with
      queues := f.queues.set k f.queues[k].tail
      shown := some { level := k, ref := .runner e, dwell := some f.runnerDwell } }

/-- Whether a candidate of level `k` preempts a shown feature of level `shown` (R128). -/
def preemptsLevel (mode : FeatureMode) (k shown : Level) : Bool :=
  match mode with
  | .nested => k < shown
  | .rotating => k == 0 && shown != 0

/-- The candidate that preempts the shown feature, if one does (R128). -/
def FeatureState.preemptor (f : FeatureState) : Option (Level × Candidate) :=
  match f.shown with
  | none => none
  | some g =>
    match f.best with
    | some (k, c) => if preemptsLevel f.mode k g.level then some (k, c) else none
    | none => none

/-- Push the shown feature onto the stack; a message becomes SUSPENDED (R128). -/
def FeatureState.pushShown (f : FeatureState) : FeatureState :=
  match f.shown with
  | some g => { f.markRef g.ref .suspended with shown := none, stack := g :: f.stack }
  | none => f

/-- The preemption test (R128). -/
def FeatureState.preempt (f : FeatureState) : FeatureState :=
  match f.preemptor with
  | some (k, c) => f.pushShown.showCandidate k c
  | none => f

/-- Show the highest-priority eligible candidate, if there is one (R127, cases 3 and 4). -/
def FeatureState.showBest (f : FeatureState) : FeatureState :=
  match f.best with
  | some (k, c) => f.showCandidate k c
  | none => f

/-- Resume the top stack entry as the shown feature; a message becomes SHOWN (R127, cases 1 and 2). -/
def FeatureState.resume (f : FeatureState) (g : Feature) (rest : List Feature) : FeatureState :=
  { f.markRef g.ref .shown with shown := some g, stack := rest }

/-- Whether the top stack entry resumes at a selection (R127, cases 1 and 2). -/
def FeatureState.resumes (f : FeatureState) (g : Feature) : Bool :=
  match f.mode with
  | .rotating => true
  | .nested =>
    match f.best with
    | some (k, _) => !(k < g.level)
    | none => true

/-- The selection, with nothing shown (R127). -/
def FeatureState.select (f : FeatureState) : FeatureState :=
  match f.stack with
  | g :: rest => if f.resumes g then (f.resume g rest).preempt else f.showBest
  | [] => f.showBest

/-- Make a selection and render the band, if B is at least 1 and nothing is shown (R127). -/
def selectFeature (s : State) : State :=
  if 1 ≤ s.bi.bandHeight ∧ s.fc.shown.isNone then renderBand (s.withFc s.fc.select) else s

/-- Make the preemption test, if B is at least 1 and a feature is shown; the band is rendered when a
candidate preempts (R128). -/
def testPreemption (s : State) : State :=
  if 1 ≤ s.bi.bandHeight ∧ s.fc.preemptor.isSome then renderBand (s.withFc s.fc.preempt) else s

/-- A selection if nothing is shown, else the preemption test (R120, R123, R133). -/
def selectOrTest (s : State) : State :=
  if s.fc.shown.isNone then selectFeature s else testPreemption s

/-! ### Endings (R130) -/

/-- What becomes of a message at the end of its feature: EMPTY if its duration is not 0 or it is
deleted, else WAITING (R130, R124). -/
def endedMessage (deleted : Bool) (msg : Message) : Option Message :=
  if deleted || msg.duration != 0 then none else some { msg with state := .waiting }

/-- In ROTATING mode a level from 1 to 7 moves to the end of the rotation order (R126). -/
def FeatureState.rotate (f : FeatureState) (k : Level) : FeatureState :=
  match f.mode with
  | .nested => f
  | .rotating => if k = 0 then f else { f with rotation := f.rotation.erase k ++ [k] }

/-- Steps 2 and 3 of an ending: release the hold or settle the message, and rotate the level (R130). -/
def finishFeature (deleted : Bool) (g : Feature) (s : State) : State :=
  match g.ref with
  | .runner e => (s.withRt (s.rt.release e.slot)).withFc (s.fc.rotate g.level)
  | .message m =>
    match s.fc.messages[m] with
    | some msg =>
      s.withFc
        ({ s.fc with messages := s.fc.messages.set m (endedMessage deleted msg) }.rotate g.level)
    | none => s.withFc (s.fc.rotate g.level)

/-- Steps 1 to 3 of the ending of the shown feature (R130). -/
def endShown (deleted : Bool) (s : State) : State :=
  match s.fc.shown with
  | some g => finishFeature deleted g (s.withFc { s.fc with shown := none })
  | none => s

/-- End the shown feature and make the selection of R130, step 4. -/
def endAndSelect (deleted : Bool) (s : State) : State := selectFeature (endShown deleted s)

/-- Remove the stack entries that `gone` picks and end each (R130). -/
def removeSuspended (deleted : Bool) (gone : Feature → Bool) (s : State) : State :=
  (s.fc.stack.filter gone).foldl (fun t g => finishFeature deleted g t)
    (s.withFc { s.fc with stack := s.fc.stack.filter fun g => !gone g })

/-! ### Feature requests (R120) -/

/-- Whether a slot is in a runner queue or on the suspended stack (R120). -/
def FeatureState.holdsSlot (f : FeatureState) (i : Slot) : Bool :=
  ((List.finRange 8).any fun k => f.queues[k].any fun e => e.slot == i) ||
    f.stack.any fun g => g.isFor i

/-- Whether the shown feature is for a slot (R120). -/
def FeatureState.shows (f : FeatureState) (i : Slot) : Bool :=
  match f.shown with
  | some g => g.isFor i
  | none => false

/-- Drop the oldest entry of a full runner queue: its hold is released and the drop is counted (R120). -/
def dropOldest (k : Level) (s : State) : State :=
  match s.fc.queues[k] with
  | e :: rest =>
    if Config.featureQueueCapacity ≤ s.fc.queues[k].length then
      (s.withRt (s.rt.release e.slot)).withFc
        { s.fc with
          queues := s.fc.queues.set k rest, drops := satInc Config.halfCountCap s.fc.drops }
    else s
  | [] => s

/-- Queue an entry at the tail of a level's runner queue with a hold on its slot (R120). -/
def queueEntry (k : Level) (e : FeatureEntry) (s : State) : State :=
  (s.withRt (s.rt.hold e.slot)).withFc
    { s.fc with queues := s.fc.queues.set k (s.fc.queues[k] ++ [e]) }

/-- A runner or leader feature request (R120). -/
def requestFeature (k : Level) (e : FeatureEntry) (s : State) : State :=
  if s.fc.shows e.slot then renderBand s
  else if s.fc.holdsSlot e.slot then s
  else selectOrTest (queueEntry k e (dropOldest k s))

end Sys2Proof.Machine
end

