-- ==== Sys2Proof/Machine/Formats.lean ====
section
/-! DEFINITION. The byte layouts of what the device sends: Link Report, Nothing, Record, Fill List, Log
Entries, Lines and Status packets (chapter 11), and panel frames (R164, 11.6). -/

namespace Sys2Proof.Machine

/-! ### Absent fields and codes (11.3, 11.4) -/

/-- A tick, race time, pace, projection or upstream time; all ones when absent. -/
def optLong : Option Nat → List Byte
  | some n => be32 n
  | none => [0xFF#8, 0xFF#8, 0xFF#8, 0xFF#8]

/-- A wave, feature level or pin level; 0xFF when absent. -/
def optEighth : Option (Fin 8) → List Byte
  | some k => be8 k.val
  | none => [0xFF#8]

/-- The refusal reason codes (11.3). -/
def reasonCode : Reason → Nat
  | .noSuchMark => 1
  | .futureTime => 2
  | .clockStopped => 3
  | .clockRunning => 4
  | .badBib => 5
  | .badValue => 6
  | .notPresent => 7
  | .pinLimit => 8
  | .replyFull => 9
  | .notPermitted => 10
  | .unknownKind => 11
  | .badLength => 12
  | .busyState => 13

/-- The source codes of a pass block (11.5). -/
def sourceCode : Source → Nat
  | .markedA => 0
  | .markedB => 1
  | .timedA => 2
  | .timedB => 3
  | .corrected => 4

/-- The class codes of a log entry (11.5). DUPLICATE is never logged (R105). -/
def classCode : Class → Nat
  | .pass1 => 1
  | .pass2 => 2
  | .revision1 => 3
  | .revision2 => 4
  | .extra => 5
  | .duplicate => 0

/-- The fill state codes (11.5). -/
def fillCode : FillState → Nat
  | .new => 0
  | .filled => 1
  | .unfilled => 2

/-- The clock state codes (11.5). -/
def clockCode : ClockState → Nat
  | .stopped => 0
  | .running _ => 1
  | .full => 2

/-- A flag as a number. -/
def bit (b : Bool) : Nat := if b then 1 else 0

/-! ### Reply payloads -/

/-- The Link Report packet (11.3). Flag bits 7 to 5 are sent as 0 (DESIGN CHOICE, log 22). -/
def linkReportPacket (c : Channel) (e : ErrorRecord) : List Byte :=
  sentLong 0x81 c
    (be8 (bit e.headerBad + 2 * bit e.payloadBad + 4 * bit e.cut + 8 * bit e.wrongChannel +
        16 * bit e.lapsed) ++
      be8 e.refusals ++
      (match e.first with
       | some (kind, reason) => [kind] ++ be8 (reasonCode reason)
       | none => [0#8, 0#8]))

/-- The Nothing packet (R175). -/
def nothingPacket (c : Channel) : List Byte := sentShort 0x82 c 0

/-- The flags byte of a pass block (11.5). Bits 7 to 5 are sent as 0 (DESIGN CHOICE, log 22). -/
def derivedFlags (d : Derived) : Nat :=
  bit d.noWave + 2 * bit d.noGun + 4 * bit d.beforeGun + 8 * bit d.paceCapped + 16 * bit d.projCapped

/-- A pass block of a Record (11.5). -/
def passBlock (p : Option Pass) (d : Derived) : List Byte :=
  (match p with
   | some pass => be32 pass.tick ++ be8 (sourceCode pass.source) ++ be8 pass.count
   | none => optLong none ++ [0xFF#8] ++ be8 0) ++
    optLong d.raceTime ++ optLong d.pace ++ optLong d.projection ++ be8 (derivedFlags d)

/-- The payload of a Record (11.5). Bits 7 to 4 of its flags are sent as 0 (DESIGN CHOICE, log 22). -/
def recordPayload (slot : Slot) (r : Record) (held : Bool) : List Byte :=
  be8 slot.val ++ be16 r.bib ++ be8 (bit r.stale + 2 * bit held + 4 * fillCode r.fill) ++
    optEighth r.pin ++ optEighth r.fillWave ++ optEighth r.waveInUse ++
    (match r.upstream with
     | some (distance, time) => be16 distance ++ be32 time
     | none => be16 0 ++ optLong none) ++
    be8 (r.name.getD []).length ++ leftText 20 (r.name.getD []) ++
    passBlock r.pass1 r.derived1 ++ passBlock r.pass2 r.derived2

/-- A log entry of 11 bytes (11.5). Bits 6 to 2 of its info byte are sent as 0 (DESIGN CHOICE, log 22). -/
def logEntryBytes (e : LogEntry) : List Byte :=
  be16 e.number.toNat ++ be16 e.bib ++
    be8 (bit (e.reader == .b) + 2 * bit e.timed + 128 * bit e.gapBefore) ++
    be8 (classCode e.cls) ++ optEighth e.wave ++ be32 e.tick

/-- A cell byte of a Lines reply: character in bits 6 to 0, emphasis in bit 7 (11.3). -/
def cellByte (c : Cell) : Byte := BitVec.ofBool c.emphasis ++ c.char.extractLsb' 0 7

/-- The payload of a Lines packet (11.3). -/
def linesPayload (lineCount bandHeight first : Nat) (rows : List (List Cell)) : List Byte :=
  be8 lineCount ++ be8 bandHeight ++ be8 first ++ be8 rows.length ++
    rows.flatMap fun row => row.map cellByte

/-- The Lines packets of a reply: one up to 10 lines, else two (R175). -/
def linesPackets (c : Channel) (lineCount bandHeight first : Nat) (rows : List (List Cell)) :
    List (List Byte) :=
  if rows.length ≤ 10 then [sentLong 0x86 c (linesPayload lineCount bandHeight first rows)]
  else
    [sentLong 0x86 c (linesPayload lineCount bandHeight first (rows.take 10)),
     sentLong 0x86 c (linesPayload lineCount bandHeight (first + 10) (rows.drop 10))]

/-- The payload of a Status reply (11.5). Bits 7 and 6 of the unusable windows and of the conditions are sent
as 0 (DESIGN CHOICE, log 22). -/
def statusPayload (t : StatusReply) : List Byte :=
  be8 (clockCode t.clock.state) ++ be32 t.clock.value ++
    be16 t.occupied ++ be8 t.pinned ++ be16 t.staleFills ++
    be8 t.waiting ++ be8 t.sent ++
    be16 t.logOldest.toNat ++ be16 t.logCount ++ be16 t.logNext.toNat ++ be16 t.logRefused ++
    be8 t.queued ++ be16 t.queueDrops ++
    optEighth t.shownLevel ++ be8 t.suspended ++ be16 t.featureDrops ++
    be8 t.unusable.toNat ++ be8 t.conditions.toNat ++
    (match t.marks with
     | some (queued, lost, orphan) => be8 queued ++ be8 lost ++ be8 orphan
     | none => [])

/-- The packets of a reply (11.3, R175). -/
def replyPacketsOf (c : Channel) : Reply → List (List Byte)
  | .record slot r held => [sentLong 0x83 c (recordPayload slot r held)]
  | .fillList left bibs =>
    [sentLong 0x84 c
      (be8 left ++ be8 bibs.length ++ bibs.flatMap fun b => be16 b.1 ++ be8 b.2)]
  | .logEntries oldest count next entries =>
    [sentLong 0x85 c
      (be16 oldest.toNat ++ be16 count ++ be16 next.toNat ++ be8 entries.length ++
        entries.flatMap logEntryBytes)]
  | .lines lineCount bandHeight first rows => linesPackets c lineCount bandHeight first rows
  | .status t => [sentLong 0x87 c (statusPayload t)]

/-! ### Panel frames -/

/-- The duty a frame carries: from the mode, the brightness and the duty table (R158, R159). -/
def frameDuty (b : BoardState) : Byte :=
  match b.display with
  | .normal => b.duty[b.brightness]
  | .inverse => b.duty[b.brightness]
  | .blank => 0#8
  | .test => 255#8

/-- The character byte and attribute byte a cell is sent as in a display mode (R158, 11.6). Bits 7 to 2 of
the attribute byte are sent as 0 (DESIGN CHOICE, log 22). -/
def frameCell (mode : DisplayMode) (c : Cell) : List Byte :=
  match mode with
  | .normal => [c.char] ++ be8 (bit c.emphasis)
  | .inverse => [c.char] ++ be8 (bit c.emphasis + 2)
  | .blank => [0x20#8, 0#8]
  | .test => [0x7F#8, 1#8]

/-- The cells of a window, lines first to last and cells first to last; both last to first when the
window is turned (R164). -/
def windowCells (image : List (List Cell)) (w : Window) : List Cell :=
  let cells := ((image.drop w.firstLine).take (w.lastLine + 1 - w.firstLine)).flatMap fun row =>
    (row.drop w.firstCell).take (w.lastCell + 1 - w.firstCell)
  if w.turned then cells.reverse else cells

/-- The bytes of a window's frame as they stand at its build (R164, 11.6). -/
def frameBytes (b : BoardState) (w : Window) : List Byte :=
  let body :=
    be8 w.address ++ be8 (w.lastLine + 1 - w.firstLine) ++ be8 (w.lastCell + 1 - w.firstCell) ++
      [frameDuty b] ++ (windowCells b.image w).flatMap (frameCell b.display)
  body ++ be16 (crc16 body).toNat

/-- Build the frame of the first defined window from `from` on; none is left when the scan has ended
(R163, R164). -/
def buildFrom (start : Nat) (b : BoardState) : BoardState :=
  let next := (List.finRange 6).findSome? fun i =>
    if start ≤ i.val then b.windows[i].map fun w => (i, w) else none
  match next with
  | some (i, w) => { b with sending := some { window := i, bytes := frameBytes b w } }
  | none => { b with sending := none }

end Sys2Proof.Machine
end

