-- ==== Sys2Proof/Machine/Board.lean ====
section
/-! DEFINITION. The meanings of the board image and panel scan commands (chapter 9). -/

namespace Sys2Proof.Machine

/-! ### Board Layout -/

/-- The image with `n` lines: lines added at the bottom are blank, lines beyond are discarded (R157). -/
def resizeImage (n : Nat) (image : List (List Cell)) : List (List Cell) :=
  image.take n ++ List.replicate (n - image.length) blankLine

/-- Whether a window is defined and reaches beyond a board of `n` lines (R157). -/
def windowBeyond (n : Nat) : Option Window → Bool
  | some w => n ≤ w.lastLine
  | none => false

/-- Windows beyond the board become unused and their unusable flags are set (R157, R162). -/
def dropWindows (n : Nat) (b : BoardState) : BoardState :=
  { b with
    windows := b.windows.map fun w => if windowBeyond n w then none else w
    unusable := Vector.ofFn fun i => b.unusable[i] || windowBeyond n b.windows[i] }

/-- The list's part of a Board Layout that changes N or B (R152). -/
def layoutList (s : State) : State :=
  headTest (writeList (emptyList (s.bi.lineCount - s.bi.bandHeight) s))

/-- The band's part of a Board Layout, from the band height and clock wave before it (R119, R157). -/
def layoutBand (oldB : Nat) (oldWave : Wave) (s : State) : State :=
  if s.bi.bandHeight = 0 then endShown false s
  else if oldB = 0 then selectFeature s
  else if oldB ≠ s.bi.bandHeight then renderBand s
  else if oldWave ≠ s.bi.clockWave then renderIdleClock s
  else s

/-- Board Layout for checked values (R157). -/
def layoutChecked (n b : Nat) (w : Wave) (s : State) : State :=
  let old := s.bi
  let t := s.withBi
    { s.bi with
      lineCount := n, bandHeight := b, clockWave := w, image := resizeImage n s.bi.image }
  let t := if n ≠ old.lineCount ∨ b ≠ old.bandHeight then layoutList t else t
  let t := layoutBand old.bandHeight old.clockWave t
  t.withBi (dropWindows n t.bi)

/-- Board Layout (R156). A request that differs in no value changes nothing. -/
def boardLayout (n b wave : Nat) (s : State) : Answer :=
  if 1 ≤ n ∧ n ≤ 12 ∧ b ≤ 4 ∧ b < n then
    match toFin 8 wave with
    | some w =>
      if n = s.bi.lineCount ∧ b = s.bi.bandHeight ∧ w = s.bi.clockWave then .done s
      else .done (layoutChecked n b w s)
    | none => .refused .badValue s
  else .refused .badValue s

/-- BOARD_LAYOUT (R156). -/
def execBoardLayout (p : Packet) (s : State) : Host.Outcome State Fault Refusal :=
  receive .boardLayout p (fun _ s =>
    let l := payloadOf p
    boardLayout (byteAt l 0) (byteAt l 1) (byteAt l 2) s) s

/-! ### Display settings -/

/-- Display Mode (R158). -/
def displayMode (code : Nat) (s : State) : Answer :=
  match displayModeOf code with
  | some display => .done (s.withBi { s.bi with display })
  | none => .refused .badValue s

/-- DISPLAY_MODE (R158). -/
def execDisplayMode (p : Packet) (s : State) : Host.Outcome State Fault Refusal :=
  receive .displayMode p (fun _ s => displayMode (paramOf p) s) s

/-- A brightness level clamped to 0 to 15 (R159). -/
def brightnessOf (n : Nat) : Fin 16 := (toFin 16 n).getD 15

/-- BRIGHTNESS (R159). -/
def execBrightness (p : Packet) (s : State) : Host.Outcome State Fault Refusal :=
  receive .brightness p (fun _ s =>
    .done (s.withBi { s.bi with brightness := brightnessOf (paramOf p) })) s

/-- Whether no entry is below the one before it (R160). -/
def nonDecreasing : List Byte → Bool
  | [] => true
  | [_] => true
  | a :: b :: rest => a ≤ b && nonDecreasing (b :: rest)

/-- The 16 duty entries of a payload (R160). -/
def dutyEntries (l : List Byte) : Vector Byte 16 := Vector.ofFn fun i => l.getD i.val 0#8

/-- Duty Table (R160). -/
def dutyTable (entries : Vector Byte 16) (s : State) : Answer :=
  if nonDecreasing entries.toList ∧ entries[0] < entries[15] then
    .done (s.withBi { s.bi with duty := entries })
  else .refused .badValue s

/-- DUTY_TABLE (R160). -/
def execDutyTable (p : Packet) (s : State) : Host.Outcome State Fault Refusal :=
  receive .dutyTable p (fun _ s => dutyTable (dutyEntries (payloadOf p)) s) s

/-! ### Windows -/

/-- The checks of a window definition (R161, checks 2 to 6). -/
def windowOk (lineCount : Nat) (w : Window) : Bool :=
  w.address ≤ 5 && w.firstLine ≤ w.lastLine && w.lastLine < lineCount && w.firstCell ≤ w.lastCell &&
    w.lastCell ≤ 47

/-- The window takes a definition or becomes unused, and its unusable flag is cleared (R161, R162). -/
def setWindow (i : Fin 6) (w : Option Window) (b : BoardState) : BoardState :=
  { b with windows := b.windows.set i w, unusable := b.unusable.set i false }

/-- Panel Window: none is the code for unused (R161). -/
def panelWindow (number : Nat) (definition : Option Window) (s : State) : Answer :=
  match toFin 6 number with
  | none => .refused .badValue s
  | some i =>
    if definition.all (windowOk s.bi.lineCount) then .done (s.withBi (setWindow i definition s.bi))
    else .refused .badValue s

/-- The definition a Panel Window payload carries; none when the address is the code for unused (11.2).
Flag bits 7 to 1 are ignored (log 11). -/
def windowFields (l : List Byte) : Option Window :=
  if byteAt l 1 = 0xFF then none
  else
    some
      { address := byteAt l 1, firstLine := byteAt l 2, lastLine := byteAt l 3,
        firstCell := byteAt l 4, lastCell := byteAt l 5, turned := byteAt l 6 % 2 == 1 }

/-- PANEL_WINDOW (R161). -/
def execPanelWindow (p : Packet) (s : State) : Host.Outcome State Fault Refusal :=
  receive .panelWindow p (fun _ s =>
    panelWindow (byteAt (payloadOf p) 0) (windowFields (payloadOf p)) s) s

/-! ### The scan -/

/-- SCAN_PERIOD (R163). -/
def execScanPeriod (p : Packet) (s : State) : Host.Outcome State Fault Refusal :=
  receive .scanPeriod p (fun _ s =>
    .done (s.withBi { s.bi with scanPeriod := clamp 50 1000 (paramOf p) })) s

/-- Whether a new scan is to start: the period has passed and no frame is being sent (R163). -/
def scanDue (now : Nat) (b : BoardState) : Bool :=
  b.sending.isNone && b.scanFrom + b.scanPeriod ≤ now

/-- A scan starts: its start time is noted and the first defined window's frame is built (R163, R164). -/
def startScan (now : Nat) (b : BoardState) : BoardState := buildFrom 0 { b with scanFrom := now }

/-- SCAN_START (R163). -/
def execScanStart (s : State) : Host.Outcome State Fault Refusal :=
  event s fun s => if scanDue s.localTime s.bi then s.withBi (startScan s.localTime s.bi) else s

/-- FRAME_SENT: the next defined window's frame is built, or the scan ends (R164). It may come at any time
after the frame's start (log 17). -/
def execFrameSent (s : State) : Host.Outcome State Fault Refusal :=
  event s fun s =>
    match s.bi.sending with
    | some f => s.withBi (buildFrom (f.window.val + 1) s.bi)
    | none => s

/-! ### Read Lines -/

/-- Read Lines (R166). -/
def readLines (first count : Nat) (c : Channel) (s : State) : Answer :=
  if first < s.bi.lineCount ∧ 1 ≤ count ∧ count ≤ 12 ∧ first + count ≤ s.bi.lineCount then
    .done
      (s.enqueueReply c
        (.lines s.bi.lineCount s.bi.bandHeight first ((s.bi.image.drop first).take count)))
  else .refused .badValue s

/-- READ_LINES (R166). -/
def execReadLines (p : Packet) (s : State) : Host.Outcome State Fault Refusal :=
  receive .readLines p (fun c s => readLines (paramHigh p) (paramLow p) c s) s

end Sys2Proof.Machine
end

