-- ==== Sys2Proof/Machine/ClockUnit.lean ====
section
/-! DEFINITION. The meanings of the clock, mark and wave commands (chapter 2). -/

namespace Sys2Proof.Machine

/-! ### The race clock -/

/-- The clock loaded with a tick at local time `now`: RUNNING with a fresh tick interval, or FULL at the
maximum (R24). -/
def clockLoaded (now tick : Nat) : Clock :=
  if tick < Config.maxTick then { value := tick, state := .running now }
  else { value := Config.maxTick, state := .full }

/-- Replace the race clock. -/
def State.withClock (s : State) (k : Clock) : State := s.withCmu { s.cmu with clock := k }

/-- Clock Set (R24). -/
def clockSet (tick : Nat) (s : State) : Answer :=
  if Config.maxTick < tick then .refused .badValue s
  else if s.cmu.clock.isRunning then .refused .clockRunning s
  else .done (clockValueChanged (s.withClock (clockLoaded s.localTime tick)))

/-- CLOCK_SET (R24). -/
def execClockSet (p : Packet) (s : State) : Host.Outcome State Fault Refusal :=
  receive .clockSet p (fun _ s => clockSet (longAt (payloadOf p) 0) s) s

/-- Clock Stop (R25); the band clock is rendered again at a change of the clock state (R135). -/
def clockStop (s : State) : State :=
  match s.cmu.clock.state with
  | .stopped => s
  | .running _ => renderIdleClock (s.withClock { s.cmu.clock with state := .stopped })
  | .full => renderIdleClock (s.withClock { s.cmu.clock with state := .stopped })

/-- CLOCK_STOP (R25). -/
def execClockStop (p : Packet) (s : State) : Host.Outcome State Fault Refusal :=
  receive .clockStop p (fun _ s => .done (clockStop s)) s

/-- A Clock Trim amount clamped to -500 to +500 (R26). -/
def trimAmount (amount : Int) : Int := max (-500) (min 500 amount)

/-- The clock after a trim in RUNNING, keeping the tick interval in progress (R26). -/
def clockTrimmed (intervalFrom value : Nat) (amount : Int) : Clock :=
  let sum := (value : Int) + trimAmount amount
  if (Config.maxTick : Int) ≤ sum then { value := Config.maxTick, state := .full }
  else { value := sum.toNat, state := .running intervalFrom }

/-- Clock Trim (R26). A trim that leaves the value as it was changes nothing. -/
def clockTrim (amount : Int) (s : State) : Answer :=
  match s.cmu.clock.state with
  | .running intervalFrom =>
    let k := clockTrimmed intervalFrom s.cmu.clock.value amount
    if k = s.cmu.clock then .done s else .done (clockValueChanged (s.withClock k))
  | .stopped => .refused .clockStopped s
  | .full => .refused .clockStopped s

/-- CLOCK_TRIM (R26). -/
def execClockTrim (p : Packet) (s : State) : Host.Outcome State Fault Refusal :=
  receive .clockTrim p (fun _ s => clockTrim (paramSigned p) s) s

/-- Whether the tick interval in progress has ended (R23). -/
def intervalEnded (now : Nat) : ClockState → Bool
  | .running start => start + Config.tickInterval ≤ now
  | .stopped => false
  | .full => false

/-- The clock one tick further: RUNNING with the next interval begun, or FULL at the maximum (R23). -/
def clockAdvanced (start value : Nat) : Clock :=
  if value + 1 < Config.maxTick then
    { value := value + 1, state := .running (start + Config.tickInterval) }
  else { value := Config.maxTick, state := .full }

/-- CLOCK_ADVANCE (R23). -/
def execClockAdvance (s : State) : Host.Outcome State Fault Refusal :=
  event s fun s =>
    match s.cmu.clock.state with
    | .running start =>
      if intervalEnded s.localTime s.cmu.clock.state then
        clockValueChanged (s.withClock (clockAdvanced start s.cmu.clock.value))
      else s
    | .stopped => s
    | .full => s

/-! ### Marks -/

/-- One more lost mark (R29, R32). -/
def State.countLost (s : State) (r : Reader) : State :=
  let m := s.att.counts r
  s.withAtt (s.att.withCounts r { m with lost := satInc Config.byteCountCap m.lost })

/-- One more orphan mark (R29, R30, R32). -/
def State.countOrphan (s : State) (r : Reader) : State :=
  let m := s.att.counts r
  s.withAtt (s.att.withCounts r { m with orphan := satInc Config.byteCountCap m.orphan })

/-- Replace the marks of a reader. -/
def State.withMarks (s : State) (r : Reader) (m : ReaderMarks) : State :=
  s.withCmu (s.cmu.withMarks r m)

/-- The marks of a queue less those of one number (R28). -/
def dropMark (n : BitVec 8) (q : List Mark) : List Mark := q.filter fun m => m.number ≠ n

/-- A pulse that finds the clock RUNNING and no mark of its number: captured, or lost when the queue is
full (R29). The number has been consumed before. -/
def captureMark (r : Reader) (n : BitVec 8) (s : State) : State :=
  let m := s.cmu.marks r
  if m.queue.length < Config.markCapacity then
    s.withMarks r
      { m with queue := m.queue ++ [{ number := n, tick := s.cmu.clock.value, captured := s.localTime }] }
  else s.countLost r

/-- A pulse on a reader's mark line (R29). -/
def markPulse (r : Reader) (s : State) : State :=
  let m := s.cmu.marks r
  let s := s.withMarks r { m with next := m.next + 1 }
  if s.cmu.clock.isRunning then
    if m.queue.any fun x => x.number == m.next then
      captureMark r m.next
        ((s.withMarks r { queue := dropMark m.next m.queue, next := m.next + 1 }).countOrphan r)
    else captureMark r m.next s
  else s.countLost r

/-- MARK_PULSE (R29). -/
def execMarkPulse (r : Reader) (s : State) : Host.Outcome State Fault Refusal :=
  event s (markPulse r)

/-- Whether a mark has reached the mark life (R30). -/
def markExpired (now : Nat) (m : Mark) : Bool := m.captured + Config.markLife ≤ now

/-- MARK_EXPIRY of one mark of a reader (R30). -/
def execMarkExpiry (r : Reader) (n : BitVec 8) (s : State) : Host.Outcome State Fault Refusal :=
  event s fun s =>
    let m := s.cmu.marks r
    if m.queue.any fun x => x.number == n && markExpired s.localTime x then
      (s.withMarks r { m with queue := dropMark n m.queue }).countOrphan r
    else s

/-! ### Waves -/

/-- Replace a wave table entry and give the triggers for what changed; a change of the clock wave's gun
has the idle band clock rendered again (R34, R36, R135). -/
def storeWave (w : Wave) (entry : WaveEntry) (s : State) : State :=
  let old := s.cmu.waves[w]
  let gunChanged := old.gun != entry.gun
  let rangeChanged := old.range != entry.range
  let s := s.withCmu { s.cmu with waves := s.cmu.waves.set w entry }
  let s := if gunChanged then trigger (gunNamed w) s else s
  let s := if rangeChanged then trigger rangeNamed s else s
  if gunChanged && w == s.bi.clockWave then renderIdleClock s else s

/-- The range choice of a Wave Set: its code and bibs, or the refusal (R34). -/
def rangeChoice (code first last : Nat) : Except Reason (Option (Nat × Nat)) :=
  if code = 1 then .ok none
  else if !bibOk first || !bibOk last then .error .badBib
  else if last < first then .error .badValue
  else .ok (some (first, last))

/-- The gun choice of a Wave Set against the gun as it stands, or the refusal (R34). -/
def gunChoice (code tick : Nat) (old : Option Nat) : Except Reason (Option Nat) :=
  if code = 2 then .ok old
  else if code = 1 then .ok none
  else if Config.maxTick < tick then .error .badValue
  else .ok (some tick)

/-- Wave Set (R34). -/
def waveSet (wave rangeCode first last gunCode tick : Nat) (s : State) : Answer :=
  match toFin 8 wave with
  | none => .refused .badValue s
  | some w =>
    if 1 < rangeCode ∨ 2 < gunCode then .refused .badValue s
    else
      match rangeChoice rangeCode first last with
      | .error reason => .refused reason s
      | .ok range =>
        match gunChoice gunCode tick s.cmu.waves[w].gun with
        | .error reason => .refused reason s
        | .ok gun => .done (storeWave w { range, gun } s)

/-- WAVE_SET (R34). -/
def execWaveSet (p : Packet) (s : State) : Host.Outcome State Fault Refusal :=
  receive .waveSet p (fun _ s =>
    let l := payloadOf p
    waveSet (byteAt l 0) (byteAt l 1) (halfAt l 2) (halfAt l 4) (byteAt l 6) (longAt l 7) s) s

/-- Gun Clear (R35). -/
def gunClear (wave : Nat) (s : State) : Answer :=
  match toFin 8 wave with
  | none => .refused .badValue s
  | some w => .done (storeWave w { s.cmu.waves[w] with gun := none } s)

/-- GUN_CLEAR (R35). -/
def execGunClear (p : Packet) (s : State) : Host.Outcome State Fault Refusal :=
  receive .gunClear p (fun _ s => gunClear (paramOf p) s) s

end Sys2Proof.Machine
end

