-- ==== Sys2Proof/Machine/Log.lean ====
section
/-! DEFINITION. The meanings of the split log's requests (chapter 6). -/

namespace Sys2Proof.Machine

/-- The number of the oldest entry; the next number while the log is empty (R112). -/
def SplitLog.oldest (l : SplitLog) : Half :=
  match l.entries with
  | e :: _ => e.number
  | [] => l.next

/-- The place of a number counted from the oldest, modulo 65,536 (R107). -/
def SplitLog.placeOf (l : SplitLog) (n : Half) : Nat := (n - l.oldest).toNat

/-- Whether an entry number is held (R107). -/
def SplitLog.holds (l : SplitLog) (n : Half) : Bool := l.placeOf n < l.entries.length

/-- The entries a Collect returns: from number `n` onward, up to `m` of them, if `n` is held (R111). -/
def SplitLog.collect (l : SplitLog) (n : Half) (m : Nat) : List LogEntry :=
  if l.holds n then (l.entries.drop (l.placeOf n)).take m else []

/-- Collect: the Log Entries reply with its bounds joins the channel's queue (R111, R112). -/
def collectEntries (c : Channel) (n : Half) (maximum : Nat) (s : State) : State :=
  s.enqueueReply c
    (.logEntries s.sl.oldest s.sl.entries.length s.sl.next
      (s.sl.collect n (clamp 1 32 maximum)))

/-- COLLECT (R111). -/
def execCollect (p : Packet) (s : State) : Host.Outcome State Fault Refusal :=
  receive .collect p (fun c s =>
    .done
      (collectEntries c (BitVec.ofNat 16 (halfAt (payloadOf p) 0)) (byteAt (payloadOf p) 2) s)) s

/-- Release through a number (R113). -/
def releaseEntries (n : Half) (s : State) : Answer :=
  if s.sl.holds n then
    .done (s.withSl { s.sl with entries := s.sl.entries.drop (s.sl.placeOf n + 1) })
  else .refused .badValue s

/-- RELEASE (R113). -/
def execRelease (p : Packet) (s : State) : Host.Outcome State Fault Refusal :=
  receive .release p (fun _ s => releaseEntries (bodyParam p.body) s) s

end Sys2Proof.Machine
end

