-- ==== Sys2Proof/Machine/Attention.lean ====
section
/-! DEFINITION. The meanings of Status, Attention Mask and the reset commands (chapter 10). -/

namespace Sys2Proof.Machine

/-! ### Status -/

/-- The set of windows whose unusable flag is set, bit w for window w (R162, 11.5). -/
def unusableBits (b : BoardState) : BitVec 6 :=
  BitVec.ofBool b.unusable[5] ++ BitVec.ofBool b.unusable[4] ++ BitVec.ofBool b.unusable[3] ++
    BitVec.ofBool b.unusable[2] ++ BitVec.ofBool b.unusable[1] ++ BitVec.ofBool b.unusable[0]

/-- The reader group of a Status reply: mark queue length, lost-marks, orphan-marks (R170). -/
def readerGroup (s : State) (c : Channel) : Option (Nat × Nat × Nat) :=
  (readerOf c).map fun r =>
    ((s.cmu.marks r).queue.length, (s.att.counts r).lost, (s.att.counts r).orphan)

/-- The Status reply to a channel, from the state as it stands (R170). -/
def statusReply (s : State) (c : Channel) : StatusReply :=
  { clock := s.cmu.clock
    occupied := s.rt.occupiedCount
    pinned := s.rt.pinnedCount
    staleFills := s.rt.staleFills
    waiting := s.rt.waiting
    sent := s.rt.sentCount
    logOldest := s.sl.oldest
    logCount := s.sl.entries.length
    logNext := s.sl.next
    logRefused := s.sl.refused
    queued := s.ls.queue.length
    queueDrops := s.ls.drops
    shownLevel := s.fc.shown.map fun g => g.level
    suspended := s.fc.stack.length
    featureDrops := s.fc.drops
    unusable := unusableBits s.bi
    conditions := present s c
    marks := readerGroup s c }

/-- Set a reader channel's lost-marks and orphan-marks counts to 0; other channels have none (R32). -/
def clearCounts (c : Channel) (a : AttentionState) : AttentionState :=
  match readerOf c with
  | some r => a.withCounts r { lost := 0, orphan := 0 }
  | none => a

/-- Status (R170). -/
def statusRequest (c : Channel) (s : State) : State :=
  let t := s.enqueueReply c (.status (statusReply s c))
  t.withAtt (clearCounts c t.att)

/-- STATUS (R170). -/
def execStatus (p : Packet) (s : State) : Host.Outcome State Fault Refusal :=
  receive .status p (fun c s => .done (statusRequest c s)) s

/-! ### Attention Mask -/

/-- Attention Mask (R169). Flag bits 7 and 6 are ignored (log 11). -/
def attentionMask (c : Channel) (flags threshold : Nat) (s : State) : State :=
  s.withAtt
    { s.att with
      masks := s.att.masks.set c (BitVec.ofNat 6 flags)
      logThreshold := if c = 2 then clamp 1 2048 threshold else s.att.logThreshold }

/-- ATTENTION_MASK (R169). -/
def execAttentionMask (p : Packet) (s : State) : Host.Outcome State Fault Refusal :=
  receive .attentionMask p (fun c s =>
    .done (attentionMask c (byteAt (payloadOf p) 0) (halfAt (payloadOf p) 1) s)) s

/-! ### Channel Reset -/

/-- A reader channel's mark queue emptied and its next mark number 0; other channels have none (R33). -/
def resetMarks (c : Channel) (x : CmuState) : CmuState :=
  match readerOf c with
  | some r => x.withMarks r { queue := [], next := 0#8 }
  | none => x

/-- Channel Reset (R22, R33, R173). -/
def channelReset (c : Channel) (s : State) : State :=
  let s := s.withLc
    { s.lc with
      replies := s.lc.replies.set c [], errors := s.lc.errors.set c ErrorRecord.empty }
  let s := s.withCmu (resetMarks c s.cmu)
  let s := s.withAtt (clearCounts c { s.att with masks := s.att.masks.set c 0x3F#6 })
  s.arbiter fun now l => endHold now c l

/-- CHANNEL_RESET (R173). -/
def execChannelReset (p : Packet) (s : State) : Host.Outcome State Fault Refusal :=
  receive .channelReset p (fun c s => .done (channelReset c s)) s

/-! ### Race Clear -/

/-- The clock and mark unit after Race Clear: ranges and mark numbers kept (R40). -/
def CmuState.raceCleared (x : CmuState) : CmuState :=
  { clock := { value := 0, state := .stopped }
    marksA := { x.marksA with queue := [] }
    marksB := { x.marksB with queue := [] }
    waves := x.waves.map fun w => { w with gun := none } }

/-- The feature controller after Race Clear: mode, mask, leader level and runner dwell kept (R138). -/
def FeatureState.raceCleared (f : FeatureState) : FeatureState :=
  { featureAtPowerOn with
    mode := f.mode, mask := f.mask, leaderLevel := f.leaderLevel, runnerDwell := f.runnerDwell }

/-- The list controller after Race Clear: K and the settings kept (R154). -/
def ListState.raceCleared (l : ListState) : ListState :=
  { l with buffers := List.replicate l.size none, top := 0, queue := [], drops := 0 }

/-- The attention block after Race Clear: masks and log threshold kept (R172). -/
def AttentionState.raceCleared (a : AttentionState) : AttentionState :=
  { a with countsA := { lost := 0, orphan := 0 }, countsB := { lost := 0, orphan := 0 } }

/-- Race Clear (R172). The head test that the setting of the clock to 0 brings finds the queue empty
(R146). -/
def raceClear (s : State) : State :=
  let s := s.withCmu s.cmu.raceCleared
  let s := s.withRt RunnerTable.empty
  let s := s.withSa { position := none }
  let s := s.withSl SplitLog.empty
  let s := s.withFc s.fc.raceCleared
  let s := s.withLs s.ls.raceCleared
  let s := s.withAtt s.att.raceCleared
  writeList (renderBand s)

/-- RACE_CLEAR (R172). -/
def execRaceClear (p : Packet) (s : State) : Host.Outcome State Fault Refusal :=
  receive .raceClear p (fun _ s => .done (raceClear s)) s

/-! ### Power-on -/

/-- RESET_ASSERTED: every block is held at its power-on values; the input lines keep their levels (R171). -/
def execResetAsserted (s : State) : Host.Outcome State Fault Refusal :=
  .next (State.atPowerOn s.lc.requestLine s.lc.masterBusy true s.pending)

/-- POWER_ON: every block starts from its power-on values, a grant decision is taken and the first scan
starts (R171). -/
def execPowerOn (s : State) : Host.Outcome State Fault Refusal :=
  let t := State.atPowerOn s.lc.requestLine s.lc.masterBusy false s.pending
  let t := t.arbiter grantDecision
  .next (t.withBi (startScan t.localTime t.bi))

end Sys2Proof.Machine
end

