-- ==== Sys2Proof/Machine/Band.lean ====
section
/-! DEFINITION. The meanings of the feature band's commands (chapter 7). -/

namespace Sys2Proof.Machine

/-! ### Messages -/

/-- Store a message in place of an EMPTY one: WAITING, with a new posting place after every other
message's (R122, R123). -/
def FeatureState.postNew (f : FeatureState) (m : Fin 8) (k : Level) (duration : Nat)
    (lines : List (List Byte)) : FeatureState :=
  { f with
    messages := f.messages.set m (some { level := k, duration, lines, state := .waiting })
    posting := f.posting.erase m ++ [m] }

/-- Replace the level, duration and lines of a message in place (R123). -/
def FeatureState.repost (f : FeatureState) (m : Fin 8) (msg : Message) (k : Level) (duration : Nat)
    (lines : List (List Byte)) : FeatureState :=
  { f with messages := f.messages.set m (some { msg with level := k, duration, lines }) }

/-- Post Message for a checked message, level and lines (R123). -/
def postChecked (m : Fin 8) (k : Level) (duration : Nat) (lines : List (List Byte)) (s : State) :
    State :=
  match s.fc.messages[m] with
  | none => selectOrTest (s.withFc (s.fc.postNew m k duration lines))
  | some msg =>
    let t := s.withFc (s.fc.repost m msg k duration lines)
    match msg.state with
    | .waiting =>
      if t.fc.shown.isNone then selectFeature t
      else if msg.level = k then t
      else testPreemption t
    | .shown => renderBand t
    | .suspended => t

/-- Post Message (R123). -/
def postMessage (message level duration lineCount : Nat) (text : List Byte) (s : State) : Answer :=
  match toFin 8 message, toFin 8 level with
  | some m, some k =>
    if 1 ≤ lineCount ∧ lineCount ≤ 4 then
      .done (postChecked m k (clamp 0 600 duration) (linesOf lineCount text) s)
    else .refused .badValue s
  | none, _ => .refused .badValue s
  | some _, none => .refused .badValue s

/-- POST_MESSAGE (R123). -/
def execPostMessage (p : Packet) (s : State) : Host.Outcome State Fault Refusal :=
  receive .postMessage p (fun _ s =>
    let l := payloadOf p
    postMessage (byteAt l 0) (byteAt l 1) (halfAt l 2) (byteAt l 4) (l.drop 5) s) s

/-- Whether a feature is message `m`. -/
def Feature.isMessage (g : Feature) (m : Fin 8) : Bool := g.ref == .message m

/-- Delete Message of a message in the store (R124). -/
def deleteStored (m : Fin 8) (s : State) : State :=
  match s.fc.messages[m] with
  | none => s
  | some msg =>
    match msg.state with
    | .shown => endAndSelect true s
    | .suspended => removeSuspended true (fun g => g.isMessage m) s
    | .waiting => s.withFc { s.fc with messages := s.fc.messages.set m none }

/-- Delete Message (R124). -/
def deleteMessage (message : Nat) (s : State) : Answer :=
  match toFin 8 message with
  | some m => .done (deleteStored m s)
  | none => .refused .badValue s

/-- DELETE_MESSAGE (R124). -/
def execDeleteMessage (p : Packet) (s : State) : Host.Outcome State Fault Refusal :=
  receive .deleteMessage p (fun _ s => deleteMessage (paramOf p) s) s

/-! ### End Feature -/

/-- Whether a feature's recorded level is `k`. -/
def Feature.atLevel (k : Level) (g : Feature) : Bool := g.level == k

/-- End Feature of a level (R131). -/
def endLevel (k : Level) (s : State) : Answer :=
  if s.fc.shown.any (Feature.atLevel k) then .done (endAndSelect false s)
  else if s.fc.stack.any (Feature.atLevel k) then
    .done (removeSuspended false (Feature.atLevel k) s)
  else .refused .notPresent s

/-- End Feature (R131). With nothing shown a non-specific end has no effect. -/
def endFeature (code : Nat) (s : State) : Answer :=
  if code = 0xFF then
    .done (if s.fc.shown.isSome then endAndSelect false s else s)
  else
    match toFin 8 code with
    | some k => endLevel k s
    | none => .refused .badValue s

/-- END_FEATURE (R131). -/
def execEndFeature (p : Packet) (s : State) : Host.Outcome State Fault Refusal :=
  receive .endFeature p (fun _ s => endFeature (paramOf p) s) s

/-! ### Feature Setup -/

/-- Whether level `k` is masked by `new` and not by `old` (R133). -/
def newlyMasked (old new : BitVec 8) (k : Level) : Bool :=
  new.getLsbD k.val && !old.getLsbD k.val

/-- The ending of what a newly masked level shows and has suspended, without a selection (R133). -/
def maskLevel (k : Level) (s : State) : State :=
  removeSuspended false (Feature.atLevel k)
    (if s.fc.shown.any (Feature.atLevel k) then endShown false s else s)

/-- The endings of R133, step 1, for every newly masked level, lowest number first (DESIGN CHOICE,
log 14). -/
def maskLevels (old new : BitVec 8) (s : State) : State :=
  ((List.finRange 8).filter (newlyMasked old new)).foldl (fun t k => maskLevel k t) s

/-- Feature Setup (R132, R133). -/
def featureSetup (modeCode : Nat) (mask : BitVec 8) (leaderCode dwell : Nat) (s : State) : Answer :=
  match featureModeOf modeCode, leaderLevelOf leaderCode with
  | some mode, some leaderLevel =>
    if mode ≠ s.fc.mode ∧ (s.fc.shown.isSome ∨ !s.fc.stack.isEmpty) then .refused .busyState s
    else
      let t := s.withFc
        { s.fc with mode, mask, leaderLevel, runnerDwell := clamp 1000 30000 dwell }
      .done (selectOrTest (maskLevels s.fc.mask mask t))
  | none, _ => .refused .badValue s
  | some _, none => .refused .badValue s

/-- FEATURE_SETUP (R132). -/
def execFeatureSetup (p : Packet) (s : State) : Host.Outcome State Fault Refusal :=
  receive .featureSetup p (fun _ s =>
    let l := payloadOf p
    featureSetup (byteAt l 0) (BitVec.ofNat 8 (byteAt l 1)) (byteAt l 2) (halfAt l 3) s) s

/-! ### Dwell -/

/-- Whether the shown feature's remaining dwell is 0 (R129). -/
def dwellOver (f : FeatureState) : Bool :=
  match f.shown with
  | some g => g.dwell == some 0
  | none => false

/-- DWELL_EXPIRY (R129, R130). -/
def execDwellExpiry (s : State) : Host.Outcome State Fault Refusal :=
  event s fun s => if dwellOver s.fc then endAndSelect false s else s

end Sys2Proof.Machine
end

