-- ==== Sys2Proof/Machine/Link.lean ====
section
/-! DEFINITION. The meanings of the station link's events and requests (chapter 1). -/

namespace Sys2Proof.Machine

/-! ### Bursts -/

/-- What the open pattern of a burst does to the link (R1, R15, R16, R19). -/
def openBurst (now : Nat) (l : LinkState) : LinkState :=
  let l := { l with masterBusy := true }
  match l.grant with
  | .idle => { l with burst := some .unheard }
  | .offered c since => { l with grant := .held c since, burst := some (.taken c false) }
  | .parked p =>
    { l with grant := .held p now, lastGranted := p, burst := some (.taken p false) }
  | .held c _ => { l with burst := some (.taken c false) }
  | .withdrawing c (some _) => { l with burst := some (.taken c false) }
  | .withdrawing c none => { l with burst := some (.afterGrace c) }

/-- OPEN_PATTERN (R1, R3). While RESET is asserted the burst is not taken, but its sender drives the busy
line (R3, R171). While a burst or a reply burst is on the line no other can open (log 6). -/
def execOpenPattern (s : State) : Host.Outcome State Fault Refusal :=
  if s.resetHeld then .next (s.withLc { s.lc with masterBusy := true })
  else if s.lc.burst.isSome ∨ s.lc.replyBurst.isSome then .next s
  else .next (s.arbiter openBurst)

/-- NORMAL_CLOSE (R1, R2, R6, R18, R19). -/
def execNormalClose (tail : List Byte) (s : State) : Host.Outcome State Fault Refusal :=
  event s fun s =>
    match s.lc.burst with
    | some (.taken c framingLost) =>
      let s := if framingLost then s else closeErrors tail c s
      (s.withLc s.lc.closeBurst).arbiter endExchange
    | some (.afterGrace c) => (s.flagCut c).withLc (s.flagCut c).lc.closeBurst
    | some .unheard => s.withLc s.lc.closeBurst
    | none => s

/-- CUT: the line returns to rest inside a burst (R2, R6, R18, R19). -/
def execCut (tail : List Byte) (s : State) : Host.Outcome State Fault Refusal :=
  event s fun s =>
    match s.lc.burst with
    | some (.taken c framingLost) =>
      let s := (if framingLost then s else tailHeader tail c s).flagCut c
      (s.withLc s.lc.closeBurst).arbiter endExchange
    | some (.afterGrace c) => (s.flagCut c).withLc (s.flagCut c).lc.closeBurst
    | some .unheard => s.withLc s.lc.closeBurst
    | none => s

/-- The packets of a reply burst: a Link Report if the error record is not empty, then every queued reply,
oldest first, or else a single Nothing (R12). -/
def replyPackets (c : Channel) (e : ErrorRecord) (q : List Reply) : List (List Byte) :=
  match (if e.isEmpty then [] else [linkReportPacket c e]) ++ q.flatMap (replyPacketsOf c) with
  | [] => [nothingPacket c]
  | first :: rest => first :: rest

/-- The turnaround: the reply burst opens, the error record and the reply queue are emptied (R10, R12; DEDUCED,
log 8). -/
def turnaround (c : Channel) (l : LinkState) : LinkState :=
  { l with
    burst := none
    replyBurst := some { channel := c, packets := replyPackets c l.errors[c] l.replies[c] }
    errors := l.errors.set c ErrorRecord.empty
    replies := l.replies.set c [] }

/-- TURN_CLOSE (R1, R2, R6, R12, R19). -/
def execTurnClose (tail : List Byte) (s : State) : Host.Outcome State Fault Refusal :=
  event s fun s =>
    match s.lc.burst with
    | some (.taken c framingLost) =>
      let s := if framingLost then s else closeErrors tail c s
      s.withLc (turnaround c s.lc)
    | some (.afterGrace c) => (s.flagCut c).withLc (s.flagCut c).lc.closeBurst
    | some .unheard => s.withLc s.lc.closeBurst
    | none => s

/-- REPLY_BURST_END: the device turn-closes and releases the busy line (R3, R12, R18, R19). It may come at
any time after the turnaround (log 17). -/
def execReplyBurstEnd (s : State) : Host.Outcome State Fault Refusal :=
  event s fun s =>
    match s.lc.replyBurst with
    | some _ =>
      (s.withLc { s.lc with replyBurst := none }).arbiter fun now l => settle now (endExchange now l)
    | none => s

/-- HEADER_BAD: a header fails step 1 of R5; the rest of the burst is ignored (R5, R6). A header that
passes is no such event. -/
def execHeaderBad (h : Header) (s : State) : Host.Outcome State Fault Refusal :=
  match s.hearing with
  | some c => if headerOk h then .next s else .next (packetErrorEffect .headerBad h.kind c s)
  | none => .next s

/-- UNKNOWN_KIND: a whole packet with an undefined kind code, checked as R5 says. A packet of a defined
kind is no such event. -/
def execUnknownKind (kind : Byte) (p : Packet) (s : State) : Host.Outcome State Fault Refusal :=
  match s.hearing with
  | some c =>
    if (kindOfCode kind).isSome then .next s
    else
      match packetError kind p c with
      | some e => .next (packetErrorEffect e kind c s)
      | none => .next s
  | none => .next s

/-! ### Arbitration -/

/-- What a raised request line does to the arbiter (R14, R16, R17). -/
def requestRaised (c : Channel) (now : Nat) (l : LinkState) : LinkState :=
  match l.grant with
  | .idle => grantDecision now l
  | .parked p =>
    if p = c then { l with grant := .held p now, lastGranted := p } else withdraw now p none l
  | .offered _ _ => l
  | .held _ _ => withdrawalTest now l
  | .withdrawing _ _ => l

/-- REQUEST_RAISED (R14, R16, R17). While RESET is asserted only the line's level changes. -/
def execRequestRaised (c : Channel) (s : State) : Host.Outcome State Fault Refusal :=
  if s.lc.requestLine[c] then .next s
  else
    let s := s.withLc { s.lc with requestLine := s.lc.requestLine.set c true }
    event s fun s => s.arbiter (requestRaised c)

/-- Whether an exchange of the holder is going on: a burst or a reply burst (R18). -/
def LinkState.inExchange (l : LinkState) : Bool := l.burst.isSome || l.replyBurst.isSome

/-- What a dropped request line does to the arbiter (R15, R18, R20); inside an exchange the end of the hold
tests the withdrawal conditions (DEDUCED, log 9). -/
def requestDropped (c : Channel) (now : Nat) (l : LinkState) : LinkState :=
  match l.grant with
  | .offered d _ => if d = c then withdraw now d none l else l
  | .held d _ =>
    if d = c then
      if l.inExchange then endHold now c l else withdraw now c none l
    else l
  | .idle => l
  | .parked _ => l
  | .withdrawing _ _ => l

/-- REQUEST_DROPPED (R15, R18). While RESET is asserted only the line's level changes. -/
def execRequestDropped (c : Channel) (s : State) : Host.Outcome State Fault Refusal :=
  if s.lc.requestLine[c] then
    let s := s.withLc { s.lc with requestLine := s.lc.requestLine.set c false }
    event s fun s => s.arbiter (requestDropped c)
  else .next s

/-- What the release of the busy line by its masters does to the arbiter: WITHDRAWING ends, or the
decision an asserted line held back in IDLE is taken, unless the device still drives the line (R14, R19). -/
def busyReleased (now : Nat) (l : LinkState) : LinkState :=
  match l.grant with
  | .idle => grantDecision now l
  | .withdrawing _ _ => settle now l
  | .parked _ => l
  | .offered _ _ => l
  | .held _ _ => l

/-- BUSY_RELEASE (R3, R14, R19). A master drives the line while it has a burst open, so the line is not
released then (log 7). -/
def execBusyRelease (s : State) : Host.Outcome State Fault Refusal :=
  if !s.lc.masterBusy ∨ s.lc.burst.isSome then .next s
  else
    let s := s.withLc { s.lc with masterBusy := false }
    event s fun s => s.arbiter busyReleased

/-- Whether the offer timer has reached its limit (R15). -/
def offerExpired (now : Nat) : Grant → Bool
  | .offered _ since => since + Config.offerLimit ≤ now
  | .idle => false
  | .parked _ => false
  | .held _ _ => false
  | .withdrawing _ _ => false

/-- Whether a burst open is the command waiting next: a burst has opened on the line, close to the command
being taken, and its master drives the busy line (R3, R15; DESIGN CHOICE, log 20). -/
def State.openWaits (s : State) : Bool :=
  match s.pending with
  | c :: _ => c == .openPattern
  | [] => false

/-- OFFER_TIMER_EXPIRY (R15): LAPSED, and WITHDRAWING with the grace over. A burst open waiting right behind
the expiry keeps the line busy, so that burst is ignored as one after the grace. R15 has every burst after the
lapse ignored, and R19 has WITHDRAWING end at once on a free line: with no burst open waiting the line is free,
R19 is followed, and a later burst falls under the next grant (DESIGN CHOICE, log 20). -/
def execOfferTimerExpiry (s : State) : Host.Outcome State Fault Refusal :=
  event s fun s =>
    match s.lc.grant with
    | .offered c _ =>
      if offerExpired s.localTime s.lc.grant then
        (s.flagLapsed c).arbiter fun now l =>
          withdraw now c none { l with masterBusy := l.masterBusy || s.openWaits }
      else s
    | .idle => s
    | .parked _ => s
    | .held _ _ => s
    | .withdrawing _ _ => s

/-- TENURE_REACHED: the withdrawal conditions are tested (R17). -/
def execTenureReached (s : State) : Host.Outcome State Fault Refusal :=
  event s fun s => s.arbiter withdrawalTest

/-- Whether the withdrawal grace has reached its limit (R19). -/
def graceExpired (now : Nat) : Grant → Bool
  | .withdrawing _ (some start) => start + Config.graceLimit ≤ now
  | .withdrawing _ none => false
  | .idle => false
  | .parked _ => false
  | .offered _ _ => false
  | .held _ _ => false

/-- A taken burst still open at the end of the grace is ignored from that moment (R19). What steps 2 to 4 of
R5 decided on the header of a packet not yet whole is then not recorded (DESIGN CHOICE, log 19). -/
def burstAfterGrace : Option Burst → Option Burst
  | some (.taken c _) => some (.afterGrace c)
  | some (.afterGrace c) => some (.afterGrace c)
  | some .unheard => some .unheard
  | none => none

/-- WITHDRAWAL_GRACE_END (R19). A packet whose last byte comes after it records nothing, whatever steps 2 to 4
of R5 decided on its header before; the burst's end sets CUT (DESIGN CHOICE, log 19). -/
def execWithdrawalGraceEnd (s : State) : Host.Outcome State Fault Refusal :=
  event s fun s =>
    match s.lc.grant with
    | .withdrawing c _ =>
      if graceExpired s.localTime s.lc.grant then
        s.withLc { s.lc with
          grant := .withdrawing c none, burst := burstAfterGrace s.lc.burst }
      else s
    | .idle => s
    | .parked _ => s
    | .offered _ _ => s
    | .held _ _ => s

/-- Whether the hold has reached its limit (R20). -/
def holdExpired (now : Nat) : Option Nat → Bool
  | some start => start + Config.holdLimit ≤ now
  | none => false

/-- HOLD_LIMIT: the hold ends and the withdrawal conditions are tested (R20). -/
def execHoldLimit (s : State) : Host.Outcome State Fault Refusal :=
  event s fun s =>
    if holdExpired s.localTime s.lc.holdFrom then
      (s.withLc { s.lc with holdFrom := none }).arbiter withdrawalTest
    else s

/-! ### Requests -/

/-- Arbitration Setup (R21). -/
def arbitrationSetup (modeCode parkCode : Nat) (s : State) : Answer :=
  match arbModeOf modeCode, parkOf parkCode with
  | some mode, some park => .done (s.withLc { s.lc with mode, park })
  | some _, none => .refused .badValue s
  | none, _ => .refused .badValue s

/-- ARBITRATION_SETUP (R21). -/
def execArbitrationSetup (p : Packet) (s : State) : Host.Outcome State Fault Refusal :=
  receive .arbitrationSetup p (fun _ s => arbitrationSetup (paramHigh p) (paramLow p) s) s

/-- Whether channel `c` is the holder in HELD (R20). -/
def isHolder (c : Channel) : Grant → Bool
  | .held d _ => d == c
  | .idle => false
  | .parked _ => false
  | .offered _ _ => false
  | .withdrawing _ _ => false

/-- Hold: puts a hold in force for the holder in HELD, unless one is (R20). -/
def putHold (c : Channel) (s : State) : State :=
  if isHolder c s.lc.grant ∧ s.lc.holdFrom.isNone then
    s.withLc { s.lc with holdFrom := some s.localTime }
  else s

/-- HOLD (R20). -/
def execHold (p : Packet) (s : State) : Host.Outcome State Fault Refusal :=
  receive .hold p (fun c s => .done (putHold c s)) s

/-- RELEASE_HOLD (R20). -/
def execReleaseHold (p : Packet) (s : State) : Host.Outcome State Fault Refusal :=
  receive .releaseHold p (fun c s => .done (s.arbiter fun now l => endHold now c l)) s

end Sys2Proof.Machine
end

