-- ==== Sys2Proof/Machine/RunnerList.lean ====
section
/-! DEFINITION. The meanings of the runner list's commands (chapter 8). -/

namespace Sys2Proof.Machine

/-- Whether the bottom buffer is SHOWN and has dwelt the min dwell (R146). -/
def bottomDwelt (s : State) : Bool :=
  match s.ls.buffers.getD s.ls.bottom none with
  | some line => line.shownAt + s.ls.minDwell ≤ s.localTime
  | none => false

/-- MIN_DWELL_REACHED: the head test is made (R146). -/
def execMinDwellReached (s : State) : Host.Outcome State Fault Refusal :=
  event s fun s => if bottomDwelt s then headTest s else s

/-- LINE_EXPIRY of a buffer; the head test follows if it is the bottom one (R149). -/
def execLineExpiry (j : Fin 12) (s : State) : Host.Outcome State Fault Refusal :=
  event s fun s =>
    if s.ls.expired s.localTime j.val then
      let t := emptyBuffer j.val s
      if j.val = s.ls.bottom then headTest t else t
    else s

/-- A line expiry as it is stored: 0 stays 0, other values are clamped (R151). -/
def storedExpiry (n : Nat) : Nat := if n = 0 then 0 else clamp 5000 600000 n

/-- List Timing: the four settings stored, due lines expired, then the head test (R151). -/
def listTiming (minDwell lineExpiry leadDelay ageLimit : Nat) (s : State) : State :=
  let t := s.withLs
    { s.ls with
      minDwell := clamp 500 10000 minDwell, lineExpiry := storedExpiry lineExpiry,
      leadDelay := clamp 0 6000 leadDelay, ageLimit := clamp 100 12000 ageLimit }
  headTest (expireLines t.ls.size t)

/-- LIST_TIMING (R151). -/
def execListTiming (p : Packet) (s : State) : Host.Outcome State Fault Refusal :=
  receive .listTiming p (fun _ s =>
    let l := payloadOf p
    .done (listTiming (halfAt l 0) (longAt l 2) (halfAt l 6) (halfAt l 8) s)) s

end Sys2Proof.Machine
end

