-- ==== Sys2Proof/Machine/Crossing.lean ====
section
/-! DEFINITION. The crossing intake: point settings (R43), classification (R50, R51), the log append (R108,
R109), the board routing (R56 to R59) and the meanings of the two crossing reports (chapter 3). -/

namespace Sys2Proof.Machine

/-! ### Point settings -/

/-- The checks of Point Setup after the clock check (R43). -/
def pointOk (l d1 d2 g : Nat) : Bool :=
  (1000 ≤ l && l ≤ 60000) && d1 ≤ l && (d2 == 0 || (d1 < d2 && d2 ≤ l)) &&
    (6000 ≤ g && g ≤ 360000)

/-- Point Setup (R43). -/
def pointSetup (l d1 d2 g w : Nat) (s : State) : Answer :=
  if s.cmu.clock.isRunning then .refused .clockRunning s
  else if pointOk l d1 d2 g then
    .done (s.withCi { courseLength := l, d1, d2, gap := g, window := clamp 100 3000 w })
  else .refused .badValue s

/-- POINT_SETUP (R43). -/
def execPointSetup (p : Packet) (s : State) : Host.Outcome State Fault Refusal :=
  receive .pointSetup p (fun _ s =>
    let l := payloadOf p
    pointSetup (halfAt l 0) (halfAt l 2) (halfAt l 4) (longAt l 6) (halfAt l 10) s) s

/-! ### Step 3: the slot -/

/-- A new record's slot for a crossing of an absent bib: NEW with a fill request while the list has room
after the eviction, else UNFILLED (R49, R70, R72). The record's wave in use is resolved. -/
def allocateForCrossing (bib : Nat) (s : State) : Option (Slot × State) :=
  match s.rt.allocate (derive s.cmu.waves s.ci (Record.fresh bib .new)) with
  | none => none
  | some (i, table) =>
    if table.fills.length < Config.fillCapacity then some (i, s.withRt (table.enterFill bib i))
    else
      some (i, s.withRt (table.put i (derive s.cmu.waves s.ci (Record.fresh bib .unfilled))))

/-- The slot of a crossing: the one that holds the bib, or an allocated one (R49). -/
def crossingSlot (bib : Nat) (s : State) : Option (Slot × State) :=
  match s.rt.lookup bib with
  | some i => some (i, s)
  | none => allocateForCrossing bib s

/-! ### Step 4: classification -/

/-- The class of a crossing with tick `x` (R50). -/
def classify (point : PointSettings) (r : Record) (x : Nat) : Class :=
  match r.pass1, r.pass2 with
  | none, _ => .pass1
  | some p1, none =>
    if p1.tick ≤ x + point.window ∧ x < p1.tick then .revision1
    else if p1.tick ≤ x ∧ x ≤ p1.tick + point.window then .duplicate
    else if point.d2 ≠ 0 ∧ p1.tick + point.gap ≤ x then .pass2
    else .extra
  | some _, some p2 =>
    if p2.tick ≤ x + point.window ∧ x < p2.tick then .revision2
    else if p2.tick ≤ x ∧ x ≤ p2.tick + point.window then .duplicate
    else .extra

/-- A new pass (R51). -/
def newPass (x : Nat) (source : Source) : Pass := { tick := x, source, count := 1 }

/-- A pass revised to an earlier tick (R51). -/
def revisedPass (x : Nat) (source : Source) (p : Pass) : Pass :=
  { tick := x, source, count := satInc Config.byteCountCap p.count }

/-- A pass with one more read (R51). -/
def countedPass (p : Pass) : Pass := { p with count := satInc Config.byteCountCap p.count }

/-- The record after a crossing of a class (R51). A DUPLICATE counts in the pass whose window held it:
pass 2 when present, else pass 1. -/
def updateRecord (cls : Class) (x : Nat) (source : Source) (r : Record) : Record :=
  match cls with
  | .pass1 => { r with pass1 := some (newPass x source) }
  | .pass2 => { r with pass2 := some (newPass x source) }
  | .revision1 => { r with pass1 := r.pass1.map (revisedPass x source) }
  | .revision2 => { r with pass2 := r.pass2.map (revisedPass x source) }
  | .duplicate =>
    if r.pass2.isSome then { r with pass2 := r.pass2.map countedPass }
    else { r with pass1 := r.pass1.map countedPass }
  | .extra => r

/-- Whether a class has its record derived, and its slot moved to the front (R53, R60). -/
def isPassOrRevision : Class → Bool
  | .pass1 | .pass2 | .revision1 | .revision2 => true
  | .duplicate | .extra => false

/-! ### Step 6: the log -/

/-- Append an entry to the split log, or refuse it when the log is full (R108, R109). -/
def SplitLog.append (l : SplitLog) (bib : Nat) (reader : Reader) (timed : Bool) (tick : Nat)
    (cls : Class) (wave : Option Wave) : SplitLog :=
  if l.entries.length < Config.logCapacity then
    { l with
      entries := l.entries ++
        [{ number := l.next, bib, reader, timed, tick, cls, wave, gapBefore := l.gapArmed }]
      next := l.next + 1
      gapArmed := false }
  else { l with refused := satInc Config.halfCountCap l.refused, gapArmed := true }

/-! ### Step 7: the board -/

/-- The leader flag of a pass (R121). -/
def FeatureState.leaderFlag (f : FeatureState) : PassNo → Bool
  | .one => f.leader1
  | .two => f.leader2

/-- Set the leader flag of a pass (R56). -/
def FeatureState.setLeader (f : FeatureState) : PassNo → FeatureState
  | .one => { f with leader1 := true }
  | .two => { f with leader2 := true }

/-- Whether a crossing is the leader crossing of its pass, and at what level (R56). -/
def leaderLevelFor (f : FeatureState) (pass : PassNo) (r : Record) : Option Level :=
  if f.leaderFlag pass then none
  else if (r.derived pass).raceTime.isSome then f.leaderLevel
  else none

/-- The level at which a pinned runner is featured, if it is (R57). -/
def pinFeatureLevel (s : State) (r : Record) : Option Level :=
  match r.pin with
  | some k => if 1 ≤ s.bi.bandHeight ∧ !s.fc.masked k then some k else none
  | none => none

/-- Step 7 for PASS1 and PASS2: leader test, pin test, or arrival at the list (R56 to R58). -/
def routePass (i : Slot) (pass : PassNo) (x : Nat) (r : Record) (s : State) : State :=
  match leaderLevelFor s.fc pass r with
  | some k =>
    let s := s.withFc (s.fc.setLeader pass)
    if 1 ≤ s.bi.bandHeight then requestFeature k { slot := i, bib := r.bib, kind := .leader } s
    else arrive i r.bib pass x s
  | none =>
    match pinFeatureLevel s r with
    | some k => requestFeature k { slot := i, bib := r.bib, kind := .runner } s
    | none => arrive i r.bib pass x s

/-- Step 7 of a crossing (R56 to R59). -/
def routeCrossing (i : Slot) (cls : Class) (x : Nat) (r : Record) (s : State) : State :=
  match cls with
  | .pass1 => routePass i .one x r s
  | .pass2 => routePass i .two x r s
  | .revision1 => rerender i s
  | .revision2 => rerender i s
  | .duplicate => s
  | .extra => s

/-! ### The course of a crossing -/

/-- The source of a report (R51). -/
def sourceOf : Reader → Bool → Source
  | .a, false => .markedA
  | .b, false => .markedB
  | .a, true => .timedA
  | .b, true => .timedB

/-- Step 5: the record after its update, derived for a pass or a revision (R53). -/
def crossedRecord (s : State) (cls : Class) (x : Nat) (source : Source) (r : Record) : Record :=
  let updated := updateRecord cls x source r
  if isPassOrRevision cls then derive s.cmu.waves s.ci updated else updated

/-- Step 6: append the crossing to the log, for every class but DUPLICATE (R54, R55). -/
def logCrossing (cls : Class) (reader : Reader) (timed : Bool) (x : Nat) (r : Record) (s : State) :
    State :=
  match cls with
  | .duplicate => s
  | .pass1 | .pass2 | .revision1 | .revision2 | .extra =>
    s.withSl (s.sl.append r.bib reader timed x cls r.waveInUse)

/-- Step 8: the recency order (R60). -/
def crossingRecency (i : Slot) (cls : Class) (s : State) : State :=
  if isPassOrRevision cls then s.withRt (s.rt.toFront i) else s

/-- Steps 4 to 8 for the crossing's slot (R45). -/
def crossSlot (i : Slot) (reader : Reader) (timed : Bool) (x : Nat) (s : State) : State :=
  match s.rt.slots[i] with
  | none => s
  | some r =>
    let cls := classify s.ci r x
    let r' := crossedRecord s cls x (sourceOf reader timed) r
    crossingRecency i cls
      (routeCrossing i cls x r' (logCrossing cls reader timed x r' (s.withRt (s.rt.put i r'))))

/-- Steps 2 to 8 of a crossing with tick `x` (R45, R48). -/
def crossing (reader : Reader) (timed : Bool) (bib x : Nat) (s : State) : Answer :=
  if bibOk bib then
    match crossingSlot bib s with
    | some (i, t) => .done (crossSlot i reader timed x t)
    | none => .stop .noVictim
  else .refused .badBib s

/-- The mark a claim names, if it is in the reader's queue (R31). -/
def claimed (s : State) (r : Reader) (number : Nat) : Option Mark :=
  (s.cmu.marks r).queue.find? fun m => m.number.toNat == number

/-- Crossing Report from a reader (R46). -/
def crossingReport (r : Reader) (bib number : Nat) (s : State) : Answer :=
  match claimed s r number with
  | none => .refused .noSuchMark s
  | some m =>
    let marks := s.cmu.marks r
    crossing r false bib m.tick
      (s.withMarks r { marks with queue := dropMark m.number marks.queue })

/-- CROSSING_REPORT (R45, R46). -/
def execCrossingReport (p : Packet) (s : State) : Host.Outcome State Fault Refusal :=
  receive .crossingReport p (fun c s =>
    match readerOf c with
    | some r => crossingReport r (halfAt (payloadOf p) 0) (halfAt (payloadOf p) 2) s
    | none => .refused .notPermitted s) s

/-- Whether the clock is STOPPED (R47). -/
def Clock.isStopped (k : Clock) : Bool := k.state == .stopped

/-- Timed Crossing Report from a reader (R47). -/
def timedCrossingReport (r : Reader) (bib x : Nat) (s : State) : Answer :=
  if s.cmu.clock.isStopped then .refused .clockStopped s
  else if s.cmu.clock.value < x then .refused .futureTime s
  else crossing r true bib x s

/-- TIMED_CROSSING_REPORT (R45, R47). -/
def execTimedCrossingReport (p : Packet) (s : State) : Host.Outcome State Fault Refusal :=
  receive .timedCrossingReport p (fun c s =>
    match readerOf c with
    | some r => timedCrossingReport r (halfAt (payloadOf p) 0) (longAt (payloadOf p) 2) s
    | none => .refused .notPermitted s) s

end Sys2Proof.Machine
end

