-- ==== Sys2Proof/Machine/Table.lean ====
section
/-! DEFINITION. The meanings of the runner table's commands (chapter 4) and of the recomputation pass's visit
(R100). -/

namespace Sys2Proof.Machine

/-! ### Recomputation pass -/

/-- The position after a visit; none after slot 255 (R100). -/
def nextPosition (i : Slot) : Option Slot := toFin 256 (i.val + 1)

/-- A visit of slot `i`: derive and re-render it if it is OCCUPIED and STALE (R100, R101). -/
def visitSlot (i : Slot) (s : State) : State :=
  match s.rt.slots[i] with
  | some r => if r.stale then rerender i (s.deriveSlot i) else s
  | none => s

/-- PASS_VISIT (R100). -/
def execPassVisit (s : State) : Host.Outcome State Fault Refusal :=
  event s fun s =>
    match s.sa.position with
    | some i => (visitSlot i s).withSa { position := nextPosition i }
    | none => s

/-! ### Roster Fill -/

/-- The fields a Roster Fill carries (R76). -/
structure FillFields where
  name : Option (List Byte)
  wave : Option Wave
  upstream : Option (Nat × Nat)
  deriving DecidableEq, Repr

/-- The fields of a Roster Fill after checks 2 to 5, none if one fails (R76). A name is stored character by
character (R63). -/
def fillFields (nameLength wave distance time : Nat) (name : List Byte) : Option FillFields :=
  if 20 < nameLength then none
  else if wave ≠ 0xFF ∧ 7 < wave then none
  else if (distance == 0) != (time == 0xFFFFFFFF) then none
  else if 60000 < distance ∨ (time ≠ 0xFFFFFFFF ∧ Config.maxTick < time) then none
  else
    some
      { name :=
          if nameLength = 0 then none
          else some ((name.take nameLength).map (keepChar 0x7E#8))
        wave := toFin 8 wave
        upstream := if distance = 0 then none else some (distance, time) }

/-- The record with the carried fields replaced and the fill state FILLED (R77, R78). -/
def applyFill (f : FillFields) (r : Record) : Record :=
  { r with
    name := f.name.or r.name, fillWave := f.wave.or r.fillWave, upstream := f.upstream.or r.upstream,
    fill := .filled }

/-- Roster Fill of a bib in the table, in slot `i` (R77). -/
def fillSlot (i : Slot) (bib : Nat) (f : FillFields) (s : State) : State :=
  match s.rt.slots[i] with
  | some r =>
    rerender i
      (s.withRt ((s.rt.withdraw bib).put i (derive s.cmu.waves s.ci (applyFill f r))))
  | none => s

/-- Roster Fill of an absent bib with preload set (R78). -/
def preload (bib : Nat) (f : FillFields) (s : State) : Answer :=
  match s.rt.allocate (derive s.cmu.waves s.ci (applyFill f (Record.fresh bib .filled))) with
  | some (_, table) => .done (s.withRt table)
  | none => .stop .noVictim

/-- A stale fill: counted and discarded (R78). -/
def staleFill (s : State) : State :=
  s.withRt { s.rt with staleFills := satInc Config.halfCountCap s.rt.staleFills }

/-- Roster Fill (R76 to R78). -/
def rosterFill (bib : Nat) (preloadFlag : Bool) (nameLength wave distance time : Nat)
    (name : List Byte) (s : State) : Answer :=
  if !bibOk bib then .refused .badBib s
  else
    match fillFields nameLength wave distance time name with
    | none => .refused .badValue s
    | some f =>
      match s.rt.lookup bib with
      | some i => .done (fillSlot i bib f s)
      | none => if preloadFlag then preload bib f s else .done (staleFill s)

/-- ROSTER_FILL (R76). Flag bits 7 to 1 are ignored (log 11). -/
def execRosterFill (p : Packet) (s : State) : Host.Outcome State Fault Refusal :=
  receive .rosterFill p (fun _ s =>
    let l := payloadOf p
    rosterFill (halfAt l 0) (byteAt l 2 % 2 == 1) (byteAt l 3) (byteAt l 4) (halfAt l 5) (longAt l 7)
      (l.drop 11) s) s

/-! ### Fetch Fills and timeouts -/

/-- Take up to `n` WAITING entries, oldest first: the list after, and the bib and offers of each taken
(R73). -/
def takeFills (now : Nat) : Nat → List FillRequest → List FillRequest × List (Nat × Nat)
  | _, [] => ([], [])
  | n, e :: rest =>
    if e.sent ∨ n = 0 then
      let (after, taken) := takeFills now n rest
      (e :: after, taken)
    else
      let (after, taken) := takeFills now (n - 1) rest
      ({ e with sent := true, offers := e.offers + 1, sentAt := some now } :: after,
        (e.bib, e.offers + 1) :: taken)

/-- Fetch Fills (R73). -/
def fetchFills (maximum : Nat) (c : Channel) (s : State) : State :=
  let (after, taken) := takeFills s.localTime (clamp 1 8 maximum) s.rt.fills
  let s := s.withRt { s.rt with fills := after }
  s.enqueueReply c (.fillList s.rt.waiting taken)

/-- FETCH_FILLS (R73). -/
def execFetchFills (p : Packet) (s : State) : Host.Outcome State Fault Refusal :=
  receive .fetchFills p (fun c s => .done (fetchFills (paramOf p) c s)) s

/-- Whether a SENT entry has reached the fill timeout (R74). -/
def fillExpired (now : Nat) (e : FillRequest) : Bool :=
  e.sent &&
    match e.sentAt with
    | some t => t + Config.fillTimeout ≤ now
    | none => false

/-- Whether an entry that times out leaves the list (R74). -/
def fillGivenUp (now : Nat) (e : FillRequest) : Bool :=
  fillExpired now e && Config.maxOffers ≤ e.offers

/-- An entry after the timeout of those due (R74). -/
def timedOutEntry (now : Nat) (e : FillRequest) : FillRequest :=
  if fillExpired now e then { e with sent := false } else e

/-- The slot of a given-up entry becomes UNFILLED (R74). -/
def unfillSlot (t : RunnerTable) (e : FillRequest) : RunnerTable :=
  match t.slots[e.slot] with
  | some r => t.put e.slot { r with fill := .unfilled }
  | none => t

/-- The timeout of every SENT entry that is due, together (R74; DEDUCED, log 13). -/
def timeOutFills (now : Nat) (t : RunnerTable) : RunnerTable :=
  let t' := (t.fills.filter (fillGivenUp now)).foldl unfillSlot t
  { t' with fills := (t.fills.filter fun e => !fillGivenUp now e).map (timedOutEntry now) }

/-- FILL_TIMEOUT (R74). -/
def execFillTimeout (s : State) : Host.Outcome State Fault Refusal :=
  event s fun s => s.withRt (timeOutFills s.localTime s.rt)

/-! ### Pin and Unpin -/

/-- Pin a record in slot `i` (R80). -/
def RunnerTable.setPin (t : RunnerTable) (i : Slot) (pin : Option Level) : RunnerTable :=
  match t.slots[i] with
  | some r => t.put i { r with pin }
  | none => t

/-- Pin of an absent bib: an UNFILLED record with no fill request (R80). -/
def pinAbsent (bib : Nat) (k : Level) (s : State) : Answer :=
  match s.rt.allocate
      { derive s.cmu.waves s.ci (Record.fresh bib .unfilled) with pin := some k } with
  | some (_, table) => .done (s.withRt table)
  | none => .stop .noVictim

/-- Pin (R80). -/
def pinBib (bib level : Nat) (s : State) : Answer :=
  if !bibOk bib then .refused .badBib s
  else
    match toFin 8 level with
    | none => .refused .badValue s
    | some k =>
      if k = 0 then .refused .badValue s
      else
        match s.rt.lookup bib with
        | some i =>
          if s.rt.isPinned i ∨ s.rt.pinnedCount < Config.pinLimit then
            .done (s.withRt (s.rt.setPin i (some k)))
          else .refused .pinLimit s
        | none =>
          if s.rt.pinnedCount < Config.pinLimit then pinAbsent bib k s
          else .refused .pinLimit s

/-- PIN (R80). -/
def execPin (p : Packet) (s : State) : Host.Outcome State Fault Refusal :=
  receive .pin p (fun _ s => pinBib (halfAt (payloadOf p) 0) (byteAt (payloadOf p) 2) s) s

/-- A request on a bib that must be in the table: BAD_BIB, NOT_PRESENT, or what it does to the slot
(R81, R82). -/
def withBib (bib : Nat) (s : State) (act : Slot → Answer) : Answer :=
  if !bibOk bib then .refused .badBib s
  else
    match s.rt.lookup bib with
    | some i => act i
    | none => .refused .notPresent s

/-- UNPIN (R81). -/
def execUnpin (p : Packet) (s : State) : Host.Outcome State Fault Refusal :=
  receive .unpin p (fun _ s =>
    withBib (paramOf p) s fun i => .done (s.withRt (s.rt.setPin i none))) s

/-! ### Read Record and Correct Pass -/

/-- Read Record of a slot: the Record reply joins the channel's queue (R82). -/
def readSlot (c : Channel) (i : Slot) (s : State) : Answer :=
  match s.rt.slots[i] with
  | some r => .done (s.enqueueReply c (.record i r (s.rt.isHeld i)))
  | none => .refused .notPresent s

/-- READ_RECORD (R82). -/
def execReadRecord (p : Packet) (s : State) : Host.Outcome State Fault Refusal :=
  receive .readRecord p (fun c s => withBib (paramOf p) s fun i => readSlot c i s) s

/-- The pass a Correct Pass leaves: CORRECTED with read count 1, or absent (R83). -/
def correctedPass (tick : Option Nat) : Option Pass :=
  tick.map fun x => newPass x .corrected

/-- Correct Pass of a slot: the pass set or cleared, the record derived and re-rendered (R83). -/
def correctSlot (i : Slot) (pass : PassNo) (tick : Option Nat) (s : State) : State :=
  match s.rt.slots[i] with
  | some r =>
    rerender i
      (s.withRt
        (s.rt.put i (derive s.cmu.waves s.ci (r.withPass pass (correctedPass tick)))))
  | none => s

/-- Whether a Correct Pass tick is the clear encoding or a tick (R83). -/
def correctTickOk (tick : Option Nat) : Bool :=
  match tick with
  | some x => x ≤ Config.maxTick
  | none => true

/-- Correct Pass (R83). -/
def correctPass (bib passCode : Nat) (tick : Option Nat) (s : State) : Answer :=
  if !bibOk bib then .refused .badBib s
  else
    match passNoOf passCode with
    | none => .refused .badValue s
    | some pass =>
      if correctTickOk tick then
        withBib bib s fun i => .done (correctSlot i pass tick s)
      else .refused .badValue s

/-- CORRECT_PASS (R83). -/
def execCorrectPass (p : Packet) (s : State) : Host.Outcome State Fault Refusal :=
  receive .correctPass p (fun _ s =>
    let l := payloadOf p
    correctPass (halfAt l 0) (byteAt l 2) (optLongAt l 3) s) s

/-! ### Table Flush -/

/-- Whether a slot is kept by Table Flush: pinned or held (R85). -/
def RunnerTable.kept (t : RunnerTable) (i : Slot) : Bool := t.isPinned i || t.isHeld i

/-- Table Flush (R85). -/
def RunnerTable.flush (t : RunnerTable) : RunnerTable :=
  { t with
    slots := Vector.ofFn fun i => if t.kept i then t.slots[i] else none
    order := t.order.filter t.kept ++ t.order.filter fun i => !t.kept i
    fills := t.fills.filter fun e => t.kept e.slot }

/-- TABLE_FLUSH (R85). -/
def execTableFlush (p : Packet) (s : State) : Host.Outcome State Fault Refusal :=
  receive .tableFlush p (fun _ s => .done (s.withRt s.rt.flush)) s

end Sys2Proof.Machine
end

