-- ==== Sys2Proof/Machine/Dispatch.lean ====
section
/-! DEFINITION. The meaning of each command: its effect on everything but the queue. -/

namespace Sys2Proof.Machine

/-- The meaning of a command. -/
def exec (i : Instr) (s : State) : Host.Outcome State Fault Refusal :=
  match i with
  | .powerOn => Sys2Proof.Machine.execPowerOn s
  | .resetAsserted => Sys2Proof.Machine.execResetAsserted s
  | .openPattern => Sys2Proof.Machine.execOpenPattern s
  | .normalClose tail => Sys2Proof.Machine.execNormalClose tail s
  | .turnClose tail => Sys2Proof.Machine.execTurnClose tail s
  | .replyBurstEnd => Sys2Proof.Machine.execReplyBurstEnd s
  | .cut tail => Sys2Proof.Machine.execCut tail s
  | .headerBad header => Sys2Proof.Machine.execHeaderBad header s
  | .unknownKind kind packet => Sys2Proof.Machine.execUnknownKind kind packet s
  | .requestRaised channel => Sys2Proof.Machine.execRequestRaised channel s
  | .requestDropped channel => Sys2Proof.Machine.execRequestDropped channel s
  | .busyRelease => Sys2Proof.Machine.execBusyRelease s
  | .offerTimerExpiry => Sys2Proof.Machine.execOfferTimerExpiry s
  | .tenureReached => Sys2Proof.Machine.execTenureReached s
  | .withdrawalGraceEnd => Sys2Proof.Machine.execWithdrawalGraceEnd s
  | .holdLimit => Sys2Proof.Machine.execHoldLimit s
  | .crossingReport packet => Sys2Proof.Machine.execCrossingReport packet s
  | .timedCrossingReport packet => Sys2Proof.Machine.execTimedCrossingReport packet s
  | .clockSet packet => Sys2Proof.Machine.execClockSet packet s
  | .clockStop packet => Sys2Proof.Machine.execClockStop packet s
  | .clockTrim packet => Sys2Proof.Machine.execClockTrim packet s
  | .clockAdvance => Sys2Proof.Machine.execClockAdvance s
  | .markPulse reader => Sys2Proof.Machine.execMarkPulse reader s
  | .markExpiry reader number => Sys2Proof.Machine.execMarkExpiry reader number s
  | .waveSet packet => Sys2Proof.Machine.execWaveSet packet s
  | .gunClear packet => Sys2Proof.Machine.execGunClear packet s
  | .passVisit => Sys2Proof.Machine.execPassVisit s
  | .pointSetup packet => Sys2Proof.Machine.execPointSetup packet s
  | .rosterFill packet => Sys2Proof.Machine.execRosterFill packet s
  | .fetchFills packet => Sys2Proof.Machine.execFetchFills packet s
  | .fillTimeout => Sys2Proof.Machine.execFillTimeout s
  | .pin packet => Sys2Proof.Machine.execPin packet s
  | .unpin packet => Sys2Proof.Machine.execUnpin packet s
  | .readRecord packet => Sys2Proof.Machine.execReadRecord packet s
  | .correctPass packet => Sys2Proof.Machine.execCorrectPass packet s
  | .tableFlush packet => Sys2Proof.Machine.execTableFlush packet s
  | .collect packet => Sys2Proof.Machine.execCollect packet s
  | .release packet => Sys2Proof.Machine.execRelease packet s
  | .postMessage packet => Sys2Proof.Machine.execPostMessage packet s
  | .deleteMessage packet => Sys2Proof.Machine.execDeleteMessage packet s
  | .endFeature packet => Sys2Proof.Machine.execEndFeature packet s
  | .featureSetup packet => Sys2Proof.Machine.execFeatureSetup packet s
  | .dwellExpiry => Sys2Proof.Machine.execDwellExpiry s
  | .minDwellReached => Sys2Proof.Machine.execMinDwellReached s
  | .lineExpiry buffer => Sys2Proof.Machine.execLineExpiry buffer s
  | .listTiming packet => Sys2Proof.Machine.execListTiming packet s
  | .raceClear packet => Sys2Proof.Machine.execRaceClear packet s
  | .boardLayout packet => Sys2Proof.Machine.execBoardLayout packet s
  | .displayMode packet => Sys2Proof.Machine.execDisplayMode packet s
  | .brightness packet => Sys2Proof.Machine.execBrightness packet s
  | .dutyTable packet => Sys2Proof.Machine.execDutyTable packet s
  | .panelWindow packet => Sys2Proof.Machine.execPanelWindow packet s
  | .scanPeriod packet => Sys2Proof.Machine.execScanPeriod packet s
  | .scanStart => Sys2Proof.Machine.execScanStart s
  | .frameSent => Sys2Proof.Machine.execFrameSent s
  | .readLines packet => Sys2Proof.Machine.execReadLines packet s
  | .arbitrationSetup packet => Sys2Proof.Machine.execArbitrationSetup packet s
  | .status packet => Sys2Proof.Machine.execStatus packet s
  | .attentionMask packet => Sys2Proof.Machine.execAttentionMask packet s
  | .channelReset packet => Sys2Proof.Machine.execChannelReset packet s
  | .hold packet => Sys2Proof.Machine.execHold packet s
  | .releaseHold packet => Sys2Proof.Machine.execReleaseHold packet s

end Sys2Proof.Machine
end

