-- ==== Sys2Proof/Machine/Due.lean ====
section
/-! DEFINITION. Local time on an empty queue (log 1): which of the device's own events is due, and the
passing of one millisecond. -/

namespace Sys2Proof.Machine

/-- The first mark of a reader that has reached the mark life, as an event (R30). -/
def expiringMark (s : State) (r : Reader) : Option Instr :=
  ((s.cmu.marks r).queue.find? (markExpired s.localTime)).map fun m => .markExpiry r m.number

/-- The first buffer that has reached the line expiry, as an event (R149). -/
def expiringLine (s : State) : Option Instr :=
  ((List.finRange 12).find? fun j => s.ls.expired s.localTime j.val).map .lineExpiry

/-- Whether the head test would insert now that the bottom buffer has dwelt (R146). -/
def insertionDue (s : State) : Bool :=
  bottomDwelt s &&
    match s.ls.queue with
    | e :: _ => s.ls.eligible s.cmu.clock.value e || s.ls.staleEntry s.cmu.clock.value e
    | [] => false

/-- An event if its condition holds. -/
def eventIf (condition : Bool) (e : Instr) : Option Instr := if condition then some e else none

/-- The device's own events that are due, in the order the idle step takes them (log 3). -/
def dueEvents (s : State) : List (Option Instr) :=
  [eventIf s.sa.position.isSome .passVisit,
   eventIf (intervalEnded s.localTime s.cmu.clock.state) .clockAdvance,
   expiringMark s .a,
   expiringMark s .b,
   eventIf (s.rt.fills.any (fillExpired s.localTime)) .fillTimeout,
   expiringLine s,
   eventIf (insertionDue s) .minDwellReached,
   eventIf (dwellOver s.fc) .dwellExpiry,
   eventIf (offerExpired s.localTime s.lc.grant) .offerTimerExpiry,
   eventIf (mustWithdraw s.localTime s.lc) .tenureReached,
   eventIf (graceExpired s.localTime s.lc.grant) .withdrawalGraceEnd,
   eventIf (holdExpired s.localTime s.lc.holdFrom) .holdLimit,
   eventIf (scanDue s.localTime s.bi) .scanStart]

/-- The first event that is due (log 3). -/
def due (s : State) : Option Instr := (dueEvents s).findSome? id

/-- One millisecond less of a shown feature's remaining dwell (R129). -/
def countDown (f : FeatureState) : FeatureState :=
  { f with shown := f.shown.map fun g => { g with dwell := g.dwell.map fun r => r - 1 } }

/-- One millisecond of local time passes; it does not while RESET is asserted (R171). -/
def passMillisecond (s : State) : State :=
  if s.resetHeld then s else { s.withFc (countDown s.fc) with localTime := s.localTime + 1 }

/-- The event the idle step performs: the first due one, unless RESET is asserted (log 1). -/
def idleEvent (s : State) : Option Instr := if s.resetHeld then none else due s

end Sys2Proof.Machine
end

