-- ==== Sys2Proof/Machine/Step.lean ====
section
/-! DEFINITION. One step: the command at the front of the queue; on an empty queue the device's own event
that is due, else one millisecond of local time (log 1). -/

namespace Sys2Proof.Machine

/-- The step on an empty queue (log 1). -/
def idle (s : State) : Host.Outcome State Fault Refusal :=
  match idleEvent s with
  | some e => exec e s
  | none => .next (passMillisecond s)

/-- One step. -/
def step (s : State) : Host.Outcome State Fault Refusal :=
  match s.pending with
  | [] => idle s
  | c :: rest => exec c (s.withPending rest)

/-- `s` with the command that a table word spells put at the front of its queue. The table gives no row
any bits, so no word spells one and `s` is unchanged. -/
def State.withFetchWord (s : State) (nbits w : Nat) : State :=
  match decodeTableWord nbits w with
  | some c => s.withPending (c :: s.pending)
  | none => s

end Sys2Proof.Machine
end

