-- ==== Sys2Proof/Safety.lean ====
section
/-! DEFINITION. The terms claims use: a request that reaches its owner block, the request rows as a function
of their kind, and the invariants a run keeps. -/

namespace Sys2Proof.Machine

/-- The command of a request kind with a packet. -/
def requestOf : Kind → Packet → Instr
  | .crossingReport => .crossingReport
  | .timedCrossingReport => .timedCrossingReport
  | .clockSet => .clockSet
  | .clockStop => .clockStop
  | .clockTrim => .clockTrim
  | .waveSet => .waveSet
  | .gunClear => .gunClear
  | .pointSetup => .pointSetup
  | .rosterFill => .rosterFill
  | .fetchFills => .fetchFills
  | .pin => .pin
  | .unpin => .unpin
  | .readRecord => .readRecord
  | .correctPass => .correctPass
  | .tableFlush => .tableFlush
  | .collect => .collect
  | .release => .release
  | .postMessage => .postMessage
  | .deleteMessage => .deleteMessage
  | .endFeature => .endFeature
  | .featureSetup => .featureSetup
  | .raceClear => .raceClear
  | .boardLayout => .boardLayout
  | .displayMode => .displayMode
  | .brightness => .brightness
  | .dutyTable => .dutyTable
  | .panelWindow => .panelWindow
  | .scanPeriod => .scanPeriod
  | .listTiming => .listTiming
  | .readLines => .readLines
  | .arbitrationSetup => .arbitrationSetup
  | .status => .status
  | .attentionMask => .attentionMask
  | .channelReset => .channelReset
  | .hold => .hold
  | .releaseHold => .releaseHold

/-- A packet of kind `k` arrives in a heard burst of channel `c` and passes every check of the link
controller, so that its owner block executes it (R5, R7). -/
abbrev Delivered (k : Kind) (c : Channel) (p : Packet) (s : State) : Prop :=
  s.hearing = some c ∧ packetError (kindCode k) p c = none ∧ requestRefusal k p c s = none

/-! ### Names for the clauses of claims -/

/-- `t` is `s` with nothing changed but the link controller. -/
def OnlyLink (s t : State) : Prop := t = s.withLc t.lc

/-- `t` is `s` with nothing changed but the runner table. -/
def OnlyTable (s t : State) : Prop := t = s.withRt t.rt

/-- `t` is `s` with nothing changed but the board queue, the list lines with their top offset and drop count,
the hold counts and the board image: all that a head test and a rendering can reach (R139, R146). -/
def OnlyList (s t : State) : Prop :=
  t = ((s.withLs
        { s.ls with
          buffers := t.ls.buffers, top := t.ls.top, queue := t.ls.queue, drops := t.ls.drops }).withRt
      { s.rt with holds := t.rt.holds }).withBi { s.bi with image := t.bi.image }

/-- `t` is `s` with nothing changed but the board image. -/
def OnlyImage (s t : State) : Prop := t = s.withBi { s.bi with image := t.bi.image }

/-- `t` is `s` with nothing changed but the feature controller, the hold counts and the board image: all
that the feature controller's own events can reach (R127 to R130). -/
def OnlyBand (s t : State) : Prop :=
  t = ((s.withFc t.fc).withRt { s.rt with holds := t.rt.holds }).withBi { s.bi with image := t.bi.image }

/-! ### Invariants a run keeps -/

/-- While RESET is asserted every block is at its power-on values (R171). -/
def ResetHolds (s : State) : Prop :=
  s.resetHeld = true → s = State.atPowerOn s.lc.requestLine s.lc.masterBusy true s.pending

/-- What each grant state says of the line (R13 to R20). IDLE: no channel asks unless the busy line or
RESET holds the decision back. PARKED, OFFERED: nothing is on the line. HELD: the exchange, if one goes
on, is the holder's, and a holder whose request line is low is in one. WITHDRAWING: the line is busy, no
hold is in force, and a burst is taken only while the grace runs. -/
def GrantSound (l : LinkState) (resetHeld : Bool) : Grant → Prop
  | .idle =>
    (l.burst = none ∨ (l.burst = some .unheard ∧ resetHeld = false)) ∧ l.replyBurst = none ∧
      l.holdFrom = none ∧
      (resetHeld = true ∨ l.masterBusy = true ∨
        ((∀ c : Channel, l.requestLine[c] = false) ∧ l.park = none))
  | .parked p =>
    l.burst = none ∧ l.replyBurst = none ∧ l.holdFrom = none ∧ l.masterBusy = false ∧
      l.park = some p ∧ ∀ c : Channel, l.requestLine[c] = false
  | .offered c _ =>
    l.burst = none ∧ l.replyBurst = none ∧ l.holdFrom = none ∧ l.masterBusy = false ∧
      l.requestLine[c] = true
  | .held c _ =>
    (∀ b ∈ l.burst, ∃ lost, b = .taken c lost) ∧ (∀ r ∈ l.replyBurst, r.channel = c) ∧
      (l.requestLine[c] = true ∨ l.burst.isSome ∨ l.replyBurst.isSome)
  | .withdrawing c grace =>
    l.busy = true ∧ l.holdFrom = none ∧ (∀ r ∈ l.replyBurst, r.channel = c) ∧
      ∀ b ∈ l.burst, (∃ lost, b = .taken c lost ∧ grace.isSome) ∨ (b = .afterGrace c ∧ grace = none)

/-- The arbiter and the line agree (R1, R3, R13 to R20). -/
def ArbiterSound (s : State) : Prop :=
  (s.lc.burst.isSome → s.lc.masterBusy = true ∧ s.lc.replyBurst = none) ∧
    (s.resetHeld = true → s.lc.grant = .idle) ∧ GrantSound s.lc s.resetHeld s.lc.grant

/-- Error records and reply queues stay within their bounds, and a record has a first refusal exactly when
it counts one (R9, R11). -/
def RecordsSound (s : State) : Prop :=
  ∀ c : Channel,
    s.lc.errors[c].refusals ≤ 255 ∧ (s.lc.errors[c].first.isSome ↔ 0 < s.lc.errors[c].refusals) ∧
      s.lc.replies[c].length ≤ 4

/-- What each clock state says of the value (R23). -/
def ClockSound (k : Clock) : Prop :=
  match k.state with
  | .stopped => k.value ≤ 16777215
  | .running _ => k.value ≤ 16777214
  | .full => k.value = 16777215

/-- A mark queue holds at most 32 marks, in the order of their capture, no number twice, each with a tick
the running clock could show (R28). -/
def MarksSound (now : Nat) (m : ReaderMarks) : Prop :=
  m.queue.length ≤ 32 ∧ (m.queue.map fun x => x.number).Nodup ∧
    (m.queue.Pairwise fun x y => x.captured ≤ y.captured) ∧
    ∀ x ∈ m.queue, x.captured ≤ now ∧ x.tick ≤ 16777214

/-- The clock and both mark queues are sound (R23, R28). -/
def TimeSound (s : State) : Prop :=
  ClockSound s.cmu.clock ∧ MarksSound s.localTime s.cmu.marksA ∧ MarksSound s.localTime s.cmu.marksB

/-- The recency order lists each of the 256 slots once (R65). -/
def RecencySound (s : State) : Prop := s.rt.order.Perm (List.finRange 256)

/-- No two occupied slots hold the same bib, and every bib held is a bib (R62, R63). -/
def BibsSound (t : RunnerTable) : Prop :=
  (∀ (i j : Slot) (r q : Record), t.slots[i] = some r → t.slots[j] = some q → r.bib = q.bib → i = j) ∧
    ∀ (i : Slot) (r : Record), t.slots[i] = some r → 1 ≤ r.bib ∧ r.bib ≤ 65534

/-- At most 32 slots are pinned, each at a level from 1 (R67). -/
def PinsSound (t : RunnerTable) : Prop :=
  t.pinnedCount ≤ 32 ∧
    ∀ (i : Slot) (r : Record), t.slots[i] = some r → ∀ k ∈ r.pin, (1 : Nat) ≤ k.val

/-- The states a fill request can be in (R71, R73, R74). -/
def FillSound (e : FillRequest) : Prop :=
  (e.sent = true → 1 ≤ e.offers ∧ e.offers ≤ 3) ∧ (e.sent = false → e.offers ≤ 2) ∧
    (e.sentAt.isSome ↔ 1 ≤ e.offers)

/-- The fill request list: at most 32 entries, no bib twice, each for the NEW record of the slot it names,
and an entry for every NEW record (R71, R72, R75). -/
def FillsSound (t : RunnerTable) : Prop :=
  t.fills.length ≤ 32 ∧ (t.fills.map fun e => e.bib).Nodup ∧
    (∀ e ∈ t.fills,
      FillSound e ∧ ∃ r, t.slots[e.slot] = some r ∧ r.bib = e.bib ∧ r.fill = .new) ∧
    ∀ (i : Slot) (r : Record), t.slots[i] = some r → r.fill = .new → ∃ e ∈ t.fills, e.bib = r.bib

/-- The runner table is sound (R62, R67, R71). -/
def TableSound (s : State) : Prop := BibsSound s.rt ∧ PinsSound s.rt ∧ FillsSound s.rt

/-- A slot is STALE only while a pass is in flight that has yet to visit it (R98, R99). -/
def StaleSound (s : State) : Prop :=
  ∀ (i : Slot) (r : Record), s.rt.slots[i] = some r → r.stale = true →
    ∃ p ∈ s.sa.position, p ≤ i

/-- The log holds at most 2,048 entries, numbered consecutively up to the one below the next number, and
no DUPLICATE (R105, R106). -/
def LogSound (s : State) : Prop :=
  s.sl.entries.length ≤ 2048 ∧
    (∀ (k : Nat) (e : LogEntry), s.sl.entries[k]? = some e →
      e.number + BitVec.ofNat 16 (s.sl.entries.length - k) = s.sl.next ∧ e.cls ≠ .duplicate)

/-- The slots the list controller refers to, by its lines and by its queue (R66). -/
def listSlots (l : ListState) : List Slot :=
  (l.buffers.filterMap fun b => b.map fun line => line.slot) ++ l.queue.map fun e => e.slot

/-- The slot of a runner or leader feature (7.1). -/
def Feature.slotOf (g : Feature) : Option Slot :=
  match g.ref with
  | .runner e => some e.slot
  | .message _ => none

/-- The message number of a message feature (7.1). -/
def Feature.messageOf (g : Feature) : Option (Fin 8) :=
  match g.ref with
  | .message m => some m
  | .runner _ => none

/-- The shown feature, if any, and under it the suspended stack. -/
def FeatureState.shownAndStack (f : FeatureState) : List Feature := f.shown.toList ++ f.stack

/-- The slots the feature controller refers to: queued, shown and suspended (R66). -/
def featureSlots (f : FeatureState) : List Slot :=
  (f.queues.toList.flatMap fun q => q.map fun e => e.slot) ++
    f.shownAndStack.filterMap Feature.slotOf

/-- The board queue holds at most 64 entries, and the list controller refers to no slot twice (R139,
R142). -/
def ListSound (s : State) : Prop := s.ls.queue.length ≤ 64 ∧ (listSlots s.ls).Nodup

/-- Each runner queue holds at most 4 entries, and the feature controller refers to no slot twice
(R120). -/
def FeatureSlotsSound (s : State) : Prop :=
  (∀ k : Level, s.fc.queues[k].length ≤ 4) ∧ (featureSlots s.fc).Nodup

/-- The state a message must have for the place it has in the feature controller (R122). -/
def MessageSound (f : FeatureState) (m : Fin 8) (msg : Message) : Prop :=
  (msg.state = .shown ↔ ∃ g ∈ f.shown, g.ref = .message m) ∧
    (msg.state = .suspended ↔ ∃ g ∈ f.stack, g.ref = .message m)

/-- The shown feature and the suspended stack: levels rise strictly from the shown feature down the stack;
in ROTATING mode at most one feature is suspended, beneath nothing or a feature of level 0; nothing is
shown while B is 0; a message is SHOWN or SUSPENDED exactly where a feature refers to it, and a feature
refers to no EMPTY message and no message twice (R119, R122, R128). -/
def BandSound (s : State) : Prop :=
  (s.fc.shownAndStack.Pairwise fun g h => g.level < h.level) ∧
    (s.fc.mode = .rotating →
      s.fc.stack.length ≤ 1 ∧ (s.fc.stack ≠ [] → ∀ g ∈ s.fc.shown, g.level = 0)) ∧
    (s.bi.bandHeight = 0 → s.fc.shown = none) ∧
    (∀ (m : Fin 8) (msg : Message), s.fc.messages[m] = some msg → MessageSound s.fc m msg) ∧
    (∀ g ∈ s.fc.shownAndStack, ∀ m ∈ g.messageOf, s.fc.messages[m].isSome) ∧
    (s.fc.shownAndStack.filterMap Feature.messageOf).Nodup ∧
    s.fc.rotation.Perm [1, 2, 3, 4, 5, 6, 7] ∧ s.fc.posting.Perm (List.finRange 8)

/-- A character a cell may hold (R155). -/
def charOk (c : Byte) : Prop := 0x20#8 ≤ c ∧ c ≤ 0x7F#8

/-- A board line of 48 cells, each with a character a cell may hold (R155). -/
def RowSound (row : List Cell) : Prop := row.length = 48 ∧ ∀ c ∈ row, charOk c.char

/-- A window definition within a board of `lineCount` lines of 48 cells (R161, checks 2 to 6). -/
def WindowSound (lineCount : Nat) (w : Window) : Prop :=
  w.address ≤ 5 ∧ w.firstLine ≤ w.lastLine ∧ w.lastLine < lineCount ∧ w.firstCell ≤ w.lastCell ∧
    w.lastCell ≤ 47

/-- The board's layout is within its ranges; the image has N lines of 48 cells; every defined window lies
within them; the lines below the band are the cells of the list's K = N - B buffers in ring order; and what
will be written from names and messages is made of characters a cell may hold (R63, R122, R139, R155 to R157,
R161). -/
def BoardSound (s : State) : Prop :=
  s.bi.lineCount ≤ 12 ∧ s.bi.bandHeight ≤ 4 ∧ s.bi.bandHeight < s.bi.lineCount ∧
    s.ls.buffers.length = s.bi.lineCount - s.bi.bandHeight ∧ s.ls.top < s.ls.buffers.length ∧
    s.bi.image.length = s.bi.lineCount ∧ (∀ row ∈ s.bi.image, RowSound row) ∧
    (∀ (i : Fin 6) (w : Window), s.bi.windows[i] = some w → WindowSound s.bi.lineCount w) ∧
    s.bi.image.drop s.bi.bandHeight = listRows s.ls ∧
    (∀ line, some line ∈ s.ls.buffers → RowSound line.cells) ∧
    (∀ (i : Slot) (r : Record), s.rt.slots[i] = some r → ∀ name ∈ r.name, ∀ c ∈ name, charOk c) ∧
    ∀ (m : Fin 8) (msg : Message), s.fc.messages[m] = some msg →
      ∀ line ∈ msg.lines, line.length = 48 ∧ ∀ c ∈ line, charOk c

/-- The bib a slot's references must name (R66). -/
def HoldsBib (t : RunnerTable) (slot : Slot) (bib : Nat) : Prop :=
  ∃ r, t.slots[slot] = some r ∧ r.bib = bib

/-- Each hold count is the number of references to the slot, and every reference names an occupied slot
that holds its bib (R66). -/
def HoldsSound (s : State) : Prop :=
  (∀ i : Slot, s.rt.holds[i] = (listSlots s.ls).count i + (featureSlots s.fc).count i) ∧
    (∀ line, some line ∈ s.ls.buffers → HoldsBib s.rt line.slot line.bib) ∧
    (∀ e ∈ s.ls.queue, HoldsBib s.rt e.slot e.bib) ∧
    (∀ k : Level, ∀ e ∈ s.fc.queues[k], HoldsBib s.rt e.slot e.bib) ∧
    ∀ g ∈ s.fc.shownAndStack, ∀ e, g.ref = .runner e → HoldsBib s.rt e.slot e.bib

/-- The references the hold counts count are sound: the list's, the band's, the board's shape, and the
counts themselves (R66). -/
def ReferencesSound (s : State) : Prop :=
  ListSound s ∧ FeatureSlotsSound s ∧ BandSound s ∧ BoardSound s ∧ HoldsSound s

/-- All that victim choice rests on (R68). -/
def AllocationSound (s : State) : Prop :=
  RecencySound s ∧ TableSound s ∧ ReferencesSound s

end Sys2Proof.Machine
end

