-- ==== Sys2Proof/Certificates/Slice0/Obligations.lean ====
section
/-! DEFINITION. The statements for the provers. Each docstring names the rules of the spec a statement
formalises. A request's statement takes the request as it reaches its owner block (`Delivered`, R5, R7);
`PacketChecksInOrder` says when it does. -/

open Sys2Proof Sys2Proof.Machine

/-! ### The queue, local time and the opcode table -/

/-- The step runs the command at the front of the queue on the state with the queue's rest (the model's
queue, log 15). -/
def Obligations.StepTakesFrontCommand : Prop :=
  ∀ (c : Instr) (rest : List Instr) (s : State),
    s.pending = c :: rest → step s = exec c (s.withPending rest)

/-- On an empty queue the step performs the first of the device's own events that is due; with none due
one millisecond passes and the dwell of the shown feature counts down (R129; the order and the
millisecond are the model's choice, logs 1 and 3). While RESET is asserted nothing moves (R171). -/
def Claims.IdleStepTakesDueEventElsePassesTime : Prop :=
  ∀ s : State, s.pending = [] →
    (s.resetHeld = true → step s = .next s) ∧
    (s.resetHeld = false → ∀ (before rest : List (Option Instr)) (e : Instr),
      dueEvents s = before ++ some e :: rest → (∀ x ∈ before, x = none) → step s = exec e s) ∧
    (s.resetHeld = false → (∀ x ∈ dueEvents s, x = none) →
      step s = .next
        { s with
          localTime := s.localTime + 1
          fc := { s.fc with
            shown := s.fc.shown.map fun g => { g with dwell := g.dwell.map fun r => r - 1 } } })

/-- The device's own events and when each is due, in the order the idle step takes them (the order is the
model's choice, log 3): a visit while a pass is in flight; the clock at the end of its tick interval; the first
mark of reader A, then of B, captured 10,000 ms ago; the fill timeout of a SENT entry after 30,000 ms; the first
line SHOWN for the line expiry; the min dwell of the bottom line once the head is eligible; the dwell of the
shown feature; offer, tenure with its withdrawal conditions, grace, hold limit; the scan (R15, R17, R19, R20,
R23, R30, R74, R100, R129, R143, R146, R149, R163). -/
def Claims.DueEventsInOrder : Prop :=
  ∀ s : State,
    let now := s.localTime
    let mark (r : Reader) (m : ReaderMarks) : Option Instr :=
      (m.queue.find? fun x => x.captured + 10000 ≤ now).map fun x => .markExpiry r x.number
    let line (j : Nat) : Option ListLine := (s.ls.buffers[j]?).join
    let bottom := (s.ls.top + s.ls.buffers.length - 1) % s.ls.buffers.length
    dueEvents s =
      [if s.sa.position = none then none else some .passVisit,
       match s.cmu.clock.state with
       | .running start => if start + 10 ≤ now then some .clockAdvance else none
       | _ => none,
       mark .a s.cmu.marksA,
       mark .b s.cmu.marksB,
       if s.rt.fills.any fun e => e.sent && e.sentAt.any fun sent => sent + 30000 ≤ now then
         some .fillTimeout
       else none,
       ((List.finRange 12).find? fun j => (line j.val).any fun l =>
          s.ls.lineExpiry ≠ 0 ∧ l.shownAt + s.ls.lineExpiry ≤ now).map .lineExpiry,
       if ((line bottom).any fun l => l.shownAt + s.ls.minDwell ≤ now) ∧
           (s.ls.queue.head?.any fun e => e.tick + s.ls.leadDelay ≤ s.cmu.clock.value) then
         some .minDwellReached
       else none,
       if s.fc.shown.any fun g => g.dwell = some 0 then some .dwellExpiry else none,
       match s.lc.grant with
       | .offered _ since => if since + 20 ≤ now then some .offerTimerExpiry else none
       | _ => none,
       match s.lc.grant with
       | .held c tenureFrom =>
         if (∃ d : Channel, d ≠ c ∧ s.lc.requestLine[d] = true) ∧ tenureFrom + 50 ≤ now ∧
             s.lc.holdFrom = none then
           some .tenureReached
         else none
       | _ => none,
       match s.lc.grant with
       | .withdrawing _ (some start) => if start + 20 ≤ now then some .withdrawalGraceEnd else none
       | _ => none,
       if s.lc.holdFrom.any fun start => start + 500 ≤ now then some .holdLimit else none,
       if s.bi.sending = none ∧ s.bi.scanFrom + s.bi.scanPeriod ≤ now then some .scanStart else none]

/-- A command leaves the queue's rest alone, and no command but the two resets moves local time. -/
def Obligations.CommandsLeaveQueueAndTime : Prop :=
  ∀ (i : Instr) (s t : State), exec i s = .next t →
    t.pending = s.pending ∧
      (t.localTime = s.localTime ∨ ((i = .powerOn ∨ i = .resetAsserted) ∧ t.localTime = 0))

/-! ### Reset (R22, R39, R61, R87, R104, R118, R138, R154, R155, R167, R171, R173) -/

/-- POWER_ON: every block starts from its power-on values, and the arbiter takes a grant decision. The
input lines keep their levels (the model's choice, log 4). -/
def Obligations.PowerOnStartsEveryBlock : Prop :=
  ∀ s : State, ∃ t, exec .powerOn s = .next t ∧
    (t.resetHeld = false ∧ t.localTime = 0 ∧ t.pending = s.pending) ∧
    (t.lc.requestLine = s.lc.requestLine ∧ t.lc.masterBusy = s.lc.masterBusy ∧
      t.lc.mode = .rotating ∧ t.lc.park = none ∧ t.lc.holdFrom = none ∧ t.lc.burst = none ∧
      t.lc.replyBurst = none ∧
      (∀ c : Channel, t.lc.replies[c] = [] ∧ t.lc.errors[c] = ErrorRecord.empty) ∧
      ((s.lc.masterBusy = true ∨ ∀ c : Channel, s.lc.requestLine[c] = false) →
        t.lc.grant = .idle ∧ t.lc.lastGranted = 3) ∧
      (s.lc.masterBusy = false → ∀ c : Channel, s.lc.requestLine[c] = true →
        (∀ d : Channel, d < c → s.lc.requestLine[d] = false) →
        t.lc.grant = .offered c 0 ∧ t.lc.lastGranted = c)) ∧
    (t.cmu.clock = { value := 0, state := .stopped } ∧ t.cmu.marksA = { queue := [], next := 0#8 } ∧
      t.cmu.marksB = { queue := [], next := 0#8 } ∧
      ∀ w : Wave, t.cmu.waves[w] = { range := none, gun := none }) ∧
    t.ci = { courseLength := 42195, d1 := 0, d2 := 0, gap := 120000, window := 600 } ∧
    ((∀ i : Slot, t.rt.slots[i] = none ∧ t.rt.holds[i] = 0) ∧
      t.rt.order = (List.finRange 256).reverse ∧ t.rt.fills = [] ∧ t.rt.staleFills = 0) ∧
    t.sa.position = none ∧
    t.sl = { entries := [], next := 0#16, refused := 0, gapArmed := false } ∧
    ((∀ k : Level, t.fc.queues[k] = []) ∧ (∀ m : Fin 8, t.fc.messages[m] = none) ∧ t.fc.mask = 0#8 ∧
      t.fc.shown = none ∧ t.fc.stack = [] ∧ t.fc.mode = .nested ∧
      t.fc.rotation = [1, 2, 3, 4, 5, 6, 7] ∧ t.fc.leader1 = false ∧ t.fc.leader2 = false ∧
      t.fc.leaderLevel = some 1 ∧ t.fc.runnerDwell = 6000 ∧ t.fc.drops = 0) ∧
    t.ls =
      { buffers := List.replicate 8 none, top := 0, queue := [], minDwell := 2000, lineExpiry := 0,
        leadDelay := 800, ageLimit := 2000, drops := 0 } ∧
    (t.bi.lineCount = 10 ∧ t.bi.bandHeight = 2 ∧ t.bi.clockWave = 0 ∧
      t.bi.image =
        (([0x57#8, 0x41#8, 0x56#8, 0x45#8, 0x20#8, 0x30#8] ++ List.replicate 35 0x20#8 ++
          [0x2D#8, 0x3A#8, 0x2D#8, 0x2D#8, 0x3A#8, 0x2D#8, 0x2D#8]).map fun x =>
            ({ char := x, emphasis := false } : Cell)) ::
          List.replicate 9 (List.replicate 48 { char := 0x20#8, emphasis := false }) ∧
      t.bi.display = .normal ∧
      t.bi.brightness = 8 ∧ (∀ i : Fin 16, t.bi.duty[i].toNat = 17 * i.val) ∧
      (∀ w : Fin 6, t.bi.windows[w] = none ∧ t.bi.unusable[w] = false) ∧ t.bi.scanPeriod = 100 ∧
      t.bi.scanFrom = 0 ∧ t.bi.sending = none) ∧
    (∀ c : Channel, t.att.masks[c] = 0x3F#6) ∧ t.att.logThreshold = 512 ∧
      t.att.countsA = { lost := 0, orphan := 0 } ∧ t.att.countsB = { lost := 0, orphan := 0 }

/-- RESET_ASSERTED: every block is put at its power-on values, those POWER_ON would leave but for the grant
decision it takes, and every grant line and ATTN line is low (R171). -/
def Claims.ResetAssertedHoldsEveryBlock : Prop :=
  ∀ s : State, ∃ t, exec .resetAsserted s = .next t ∧
    t = State.atPowerOn s.lc.requestLine s.lc.masterBusy true s.pending ∧
    (∃ u, exec .powerOn s = .next u ∧
      t = { u with resetHeld := true, lc := { u.lc with grant := .idle, lastGranted := 3 } }) ∧
    ∀ c : Channel, t.grantLine c = false ∧ t.attn c = false

/-- While RESET is asserted no command but POWER_ON and RESET_ASSERTED changes anything but the levels of
the request lines and the busy line, which are inputs: no burst is taken, no pulse counted, no timer runs
(R171). -/
def Claims.NothingMovesWhileResetIsHeld : Prop :=
  ∀ (i : Instr) (s : State), s.resetHeld = true → i ≠ .powerOn → i ≠ .resetAsserted →
    ∃ t, exec i s = .next t ∧
      t = s.withLc { s.lc with requestLine := t.lc.requestLine, masterBusy := t.lc.masterBusy } ∧
      ∀ c : Channel, t.attn c = false

/-- `Claims.ResetAssertedHoldsEveryBlock`, `Claims.NothingMovesWhileResetIsHeld`, each with the
rules it names. -/
def Obligations.ResetHeldStopsTheDevice : Prop :=
  Claims.ResetAssertedHoldsEveryBlock ∧
    Claims.NothingMovesWhileResetIsHeld

/-- Every step keeps: while RESET is asserted every block is at its power-on values (R171). -/
def Obligations.EveryStepKeepsResetHolds : Prop :=
  ∀ s t : State, ResetHolds s → step s = .next t → ResetHolds t

/-- Right after reset all four ATTN lines are asserted, for the clock alone (R171). -/
def Claims.AttentionAtReset : Prop :=
  ∀ c : Channel, State.reset.attn c = true ∧ present State.reset c = 0b000100#6

/-- The invariants the other statements keep hold right after reset. -/
def Claims.InvariantsHoldAtReset : Prop :=
  ResetHolds State.reset ∧ ArbiterSound State.reset ∧ RecordsSound State.reset ∧
    TimeSound State.reset ∧ StaleSound State.reset ∧ LogSound State.reset ∧
    AllocationSound State.reset

/-- `Claims.AttentionAtReset`, `Claims.InvariantsHoldAtReset`, each with the rules it names. -/
def Obligations.ReadyAfterReset : Prop :=
  Claims.AttentionAtReset ∧
    Claims.InvariantsHoldAtReset

/-! ### The station link: packets (chapter 1) -/

/-- A number in two bytes, most significant first (chapter 11). -/
def Claims.two (n : Nat) : List Byte := [BitVec.ofNat 8 (n / 256), BitVec.ofNat 8 n]

/-- A number in four bytes, most significant first (chapter 11). -/
def Claims.four (n : Nat) : List Byte :=
  [BitVec.ofNat 8 (n / 16777216), BitVec.ofNat 8 (n / 65536), BitVec.ofNat 8 (n / 256), BitVec.ofNat 8 n]

/-- The link controller hears a packet for a channel in a taken burst of that channel whose framing is not
lost, and not while RESET is asserted (R1, R6, R171). -/
def Claims.HearingATakenBurst : Prop :=
  ∀ (s : State) (c : Channel),
    s.hearing = some c ↔ s.resetHeld = false ∧ s.lc.burst = some (.taken c false)

/-- The header of a packet is its kind, its control byte (asking flag, long flag, four reserved bits, channel),
its parameter or its length, and the header check; step 1 of R5 passes when the CRC-8 over the first four bytes
is the header check and a long packet's length is at most 512, step 5 when a packet is short or the CRC-16 over
its payload is the payload check (R4, R5, 11.1, R174, R176). -/
def Claims.HeaderAndPayloadChecks : Prop :=
  (∀ h : Header,
    headerOk h = true ↔
      crc8 ([h.kind, h.control] ++ Claims.two h.param.toNat) = h.check ∧
        (h.control.getLsbD 6 = true → h.param.toNat ≤ 512)) ∧
  (∀ (kind : Byte) (p : Packet),
    let control (long : Bool) : Byte :=
      BitVec.ofBool p.asking ++ BitVec.ofBool long ++ p.reserved ++ BitVec.ofNat 2 p.channel.val
    (∀ v, p.body = .short v →
      packetHeader kind p = { kind, control := control false, param := v, check := p.headerCheck }) ∧
    ∀ l check, p.body = .long l check →
      packetHeader kind p =
        { kind, control := control true, param := BitVec.ofNat 16 l.length, check := p.headerCheck }) ∧
  (∀ v, payloadOk (.short v) = true) ∧
  ∀ l check, payloadOk (.long l check) = true ↔ crc16 l = check

/-- The channels permitted to send each kind, and the five asking kinds (R4, R8, 11.2). -/
def Claims.PermissionTable : Prop :=
  let readers : List Kind := [.crossingReport, .timedCrossingReport]
  let control : List Kind :=
    [.clockSet, .clockStop, .clockTrim, .waveSet, .gunClear, .pointSetup, .rosterFill, .fetchFills, .pin,
     .unpin, .correctPass, .tableFlush, .collect, .release, .postMessage, .deleteMessage, .raceClear]
  let both : List Kind := [.readRecord, .endFeature, .featureSetup]
  let cabinet : List Kind :=
    [.boardLayout, .displayMode, .brightness, .dutyTable, .panelWindow, .scanPeriod, .listTiming,
     .readLines, .arbitrationSetup]
  let all : List Kind := [.status, .attentionMask, .channelReset, .hold, .releaseHold]
  (∀ (k : Kind) (c : Channel), kindPermitted k c = true ↔
    (k ∈ readers ∧ (c = 0 ∨ c = 1)) ∨ (k ∈ control ∧ c = 2) ∨ (k ∈ both ∧ (c = 2 ∨ c = 3)) ∨
      (k ∈ cabinet ∧ c = 3) ∨ k ∈ all) ∧
  ∀ k : Kind, kindAsking k = true ↔
    k = .status ∨ k = .fetchFills ∨ k = .readRecord ∨ k = .collect ∨ k = .readLines

/-- The kind codes 0x01 to 0x24, each of one kind; no other code is a request's (11.2). -/
def Claims.KindCodes : Prop :=
  let inOrder : List Kind :=
    [.crossingReport, .timedCrossingReport, .clockSet, .clockStop, .clockTrim, .waveSet, .gunClear,
     .pointSetup, .rosterFill, .fetchFills, .pin, .unpin, .readRecord, .correctPass, .tableFlush, .collect,
     .release, .postMessage, .deleteMessage, .endFeature, .featureSetup, .raceClear, .boardLayout,
     .displayMode, .brightness, .dutyTable, .panelWindow, .scanPeriod, .listTiming, .readLines,
     .arbitrationSetup, .status, .attentionMask, .channelReset, .hold, .releaseHold]
  (inOrder.map fun k => (kindCode k).toNat) = (List.range 36).map (· + 1) ∧
    ∀ (code : Byte) (k : Kind), kindOfCode code = some k ↔ kindCode k = code

/-- The form and the payload length of each kind; a Roster Fill's agrees with its name length, a Post Message's
with its line count (R7, 11.2, R76, R123). -/
def Claims.FormsAndLengths : Prop :=
  let fixed : List (Kind × Nat) :=
    [(.crossingReport, 4), (.timedCrossingReport, 6), (.clockSet, 4), (.waveSet, 11), (.pointSetup, 12),
     (.pin, 3), (.correctPass, 7), (.collect, 3), (.featureSetup, 5), (.boardLayout, 3), (.dutyTable, 16),
     (.panelWindow, 7), (.listTiming, 10), (.attentionMask, 3)]
  let short : List Kind :=
    [.clockStop, .clockTrim, .gunClear, .fetchFills, .unpin, .readRecord, .tableFlush, .release,
     .deleteMessage, .endFeature, .raceClear, .displayMode, .brightness, .scanPeriod, .readLines,
     .arbitrationSetup, .status, .channelReset, .hold, .releaseHold]
  (∀ (k : Kind) (v : Half), formOk k (.short v) = true ↔ k ∈ short) ∧
  ∀ (k : Kind) (l : List Byte) (check : Half), formOk k (.long l check) = true ↔
    (k, l.length) ∈ fixed ∨ (k = .rosterFill ∧ l.length = 11 + byteAt l 3) ∨
      (k = .postMessage ∧ l.length = 5 + 48 * byteAt l 4)

/-- A request's operands: the parameter of a short one, the payload of a long one; a field of one, two or four
bytes of the payload, its most significant byte first (R4, 5.6, 11.2). -/
def Claims.FieldsAreReadMostSignificantFirst : Prop :=
  (∀ p : Packet,
    (∀ v, p.body = .short v → paramOf p = v.toNat ∧ bodyParam p.body = v) ∧
      ∀ l check, p.body = .long l check → payloadOf p = l) ∧
  ∀ (before after : List Byte) (a b c d : Byte),
    byteAt (before ++ a :: after) before.length = a.toNat ∧
    halfAt (before ++ a :: b :: after) before.length = 256 * a.toNat + b.toNat ∧
    longAt (before ++ a :: b :: c :: d :: after) before.length =
      16777216 * a.toNat + 65536 * b.toNat + 256 * c.toNat + d.toNat

/-- A packet of any kind that fails a check of R5 or R7 has only the effect of the first check it fails,
on the record of the burst's channel, and HEADER_BAD loses the rest of the burst (R5, R6, R7, R8). -/
def Claims.PacketChecksInOrder : Prop :=
  ∀ (k : Kind) (p : Packet) (c : Channel) (s : State), s.hearing = some c →
    (headerOk (packetHeader (kindCode k) p) = false →
      exec (requestOf k p) s =
        .next ((s.withLc { s.lc with burst := some (.taken c true) }).flagHeaderBad c)) ∧
    (headerOk (packetHeader (kindCode k) p) = true →
      (p.channel ≠ c → exec (requestOf k p) s = .next (s.flagWrongChannel c)) ∧
      (p.channel = c →
        (kindPermitted k c = false →
          exec (requestOf k p) s = .next (s.refuse c (kindCode k) .notPermitted)) ∧
        (kindPermitted k c = true →
          (payloadOk p.body = false → exec (requestOf k p) s = .next (s.flagPayloadBad c)) ∧
          (payloadOk p.body = true →
            (formOk k p.body = false →
              exec (requestOf k p) s = .next (s.refuse c (kindCode k) .badLength)) ∧
            (formOk k p.body = true → kindAsking k = true → 4 ≤ s.lc.replies[c].length →
              exec (requestOf k p) s = .next (s.refuse c (kindCode k) .replyFull)) ∧
            (formOk k p.body = true → (kindAsking k = true → s.lc.replies[c].length < 4) →
              Delivered k c p s)))))

/-- A packet outside a heard burst is ignored whole (R1, R6, R19). -/
def Claims.PacketsOutsideAHeardBurstAreIgnored : Prop :=
  ∀ (k : Kind) (p : Packet) (s : State), s.hearing = none → exec (requestOf k p) s = .next s

/-- `Claims.PacketChecksInOrder`, `Claims.PacketsOutsideAHeardBurstAreIgnored`, and the checks these name:
`Claims.HearingATakenBurst`, `Claims.HeaderAndPayloadChecks`, `Claims.PermissionTable`, `Claims.KindCodes`,
`Claims.FormsAndLengths`, `Claims.FieldsAreReadMostSignificantFirst`. -/
def Obligations.PacketsArePassedOrDropped : Prop :=
  Claims.PacketChecksInOrder ∧
    Claims.PacketsOutsideAHeardBurstAreIgnored ∧
    Claims.HearingATakenBurst ∧
    Claims.HeaderAndPayloadChecks ∧
    Claims.PermissionTable ∧
    Claims.KindCodes ∧
    Claims.FormsAndLengths ∧
    Claims.FieldsAreReadMostSignificantFirst

/-- HEADER_BAD: a header that fails step 1 of R5 sets the flag and loses the rest of the burst (R5, R6). -/
def Claims.BadHeaderLosesTheBurst : Prop :=
  ∀ (h : Header) (c : Channel) (s : State), s.hearing = some c → headerOk h = false →
    ∃ t, exec (.headerBad h) s = .next t ∧
      t = (s.withLc { s.lc with burst := some (.taken c true) }).flagHeaderBad c ∧ t.hearing = none

/-- The burst after a HEADER_BAD is heard from its first byte: once the burst has ended, whichever way, and its
reply burst too if it was turn-closed, the next open pattern of the holder, who still asks, is taken (R6). -/
def Claims.NextBurstAfterABadHeaderIsHeard : Prop :=
  ∀ (h : Header) (c : Channel) (from_ : Nat) (tail : List Byte) (s t : State),
    s.hearing = some c → headerOk h = false → s.lc.replyBurst = none →
    s.lc.grant = .held c from_ → s.lc.requestLine[c] = true → exec (.headerBad h) s = .next t →
    (∀ i ∈ [Instr.normalClose tail, Instr.cut tail],
      ∃ u v, exec i t = .next u ∧ exec .openPattern u = .next v ∧ v.hearing = some c) ∧
    ∃ r u v, exec (.turnClose tail) t = .next r ∧ exec .replyBurstEnd r = .next u ∧
      exec .openPattern u = .next v ∧ v.hearing = some c

/-- UNKNOWN_KIND: an undefined kind code is refused, with the code received, after the header check and
the channel check (R5, R9). -/
def Claims.UnknownKindIsRefused : Prop :=
  ∀ (kind : Byte) (p : Packet) (c : Channel) (s : State), s.hearing = some c →
    kindOfCode kind = none → headerOk (packetHeader kind p) = true →
    exec (.unknownKind kind p) s =
      .next (if p.channel = c then s.refuse c kind .unknownKind else s.flagWrongChannel c)

/-- `Claims.BadHeaderLosesTheBurst`, `Claims.NextBurstAfterABadHeaderIsHeard`,
`Claims.UnknownKindIsRefused`, each with the rules it names. -/
def Obligations.LinkErrorEvents : Prop :=
  Claims.BadHeaderLosesTheBurst ∧
    Claims.NextBurstAfterABadHeaderIsHeard ∧
    Claims.UnknownKindIsRefused

/-- A refusal raises the count, which stays at 255, and is kept as the first refusal unless one is held;
nothing else changes (R9). -/
def Claims.RefusalIsCounted : Prop :=
  ∀ (s : State) (c : Channel) (kind : Byte) (reason : Reason),
    OnlyLink s (s.refuse c kind reason) ∧
    (∀ d : Channel, d ≠ c → (s.refuse c kind reason).lc.errors[d] = s.lc.errors[d]) ∧
    (s.refuse c kind reason).lc.errors[c] =
      { s.lc.errors[c] with
        refusals := if s.lc.errors[c].refusals < 255 then s.lc.errors[c].refusals + 1 else 255
        first := s.lc.errors[c].first.or (some (kind, reason)) } ∧
    (s.refuse c kind reason).lc =
      { s.lc with errors := (s.refuse c kind reason).lc.errors }

/-- Each link error sets its own flag in the channel's record and nothing else; a record is empty when no flag
is set, the count is 0 and the first refusal is absent (R9). -/
def Claims.LinkErrorFlags : Prop :=
  (∀ (s : State) (c : Channel),
    let e := s.lc.errors[c]
    let put (x : ErrorRecord) : State := s.withLc { s.lc with errors := s.lc.errors.set c x }
    s.flagHeaderBad c = put { e with headerBad := true } ∧
      s.flagPayloadBad c = put { e with payloadBad := true } ∧
      s.flagCut c = put { e with cut := true } ∧
      s.flagWrongChannel c = put { e with wrongChannel := true } ∧
      s.flagLapsed c = put { e with lapsed := true }) ∧
  ErrorRecord.empty =
    { headerBad := false, payloadBad := false, cut := false, wrongChannel := false, lapsed := false,
      refusals := 0, first := none } ∧
  ∀ e : ErrorRecord, e.isEmpty = true ↔ e = ErrorRecord.empty

/-- `Claims.RefusalIsCounted`, `Claims.LinkErrorFlags`, each with the rules it names. -/
def Obligations.RefusalIsCountedAndTheFirstKept : Prop :=
  Claims.RefusalIsCounted ∧
    Claims.LinkErrorFlags

/-- Error records and reply queues stay within their bounds at every step (R9, R11). -/
def Obligations.EveryStepKeepsRecordsSound : Prop :=
  ∀ s t : State, RecordsSound s → step s = .next t → RecordsSound t

/-! ### The station link: bursts (sections 1.1, 1.4) -/

/-- OPEN_PATTERN: the burst is taken for the granted channel, moving OFFERED and PARKED to HELD; it is
ignored in IDLE, and after the grace. The sender drives the busy line (R1, R3, R15, R16, R19). -/
def Claims.OpenPatternIsTakenByGrant : Prop :=
  ∀ s : State, s.resetHeld = false → s.lc.burst = none → s.lc.replyBurst = none →
    exec .openPattern s = .next (s.withLc
      (match s.lc.grant with
       | .idle => { s.lc with masterBusy := true, burst := some .unheard }
       | .parked p =>
         { s.lc with
           masterBusy := true, burst := some (.taken p false), grant := .held p s.localTime,
           lastGranted := p }
       | .offered c since =>
         { s.lc with
           masterBusy := true, burst := some (.taken c false), grant := .held c since }
       | .held c _ => { s.lc with masterBusy := true, burst := some (.taken c false) }
       | .withdrawing c (some _) => { s.lc with masterBusy := true, burst := some (.taken c false) }
       | .withdrawing c none => { s.lc with masterBusy := true, burst := some (.afterGrace c) }))

/-- While a burst or a reply burst is on the line no other opens, and while a burst is open no master
releases the busy line: the events find nothing to do (the model's choice, logs 6 and 7). -/
def Claims.OneBurstIsOnTheLineAtATime : Prop :=
  ∀ s : State, s.resetHeld = false →
    (s.lc.burst.isSome ∨ s.lc.replyBurst.isSome → exec .openPattern s = .next s) ∧
    (s.lc.burst.isSome → exec .busyRelease s = .next s)

/-- `Claims.OpenPatternIsTakenByGrant`, `Claims.OneBurstIsOnTheLineAtATime`, each with the rules it
names. -/
def Obligations.BurstsOpen : Prop :=
  Claims.OpenPatternIsTakenByGrant ∧
    Claims.OneBurstIsOnTheLineAtATime

/-- `s` after the open burst has ended without a turnaround: none is open, and the exchange ends (R18). -/
def Claims.burstEnded (s : State) : State :=
  s.withLc (endExchange s.localTime { s.lc with burst := none })

/-- NORMAL_CLOSE and CUT of a taken burst: no reply burst follows, the exchange ends, and nothing but the
link changes. A normal close of whole packets records nothing, one inside a packet's first bytes sets CUT,
and a cut sets CUT always (R2, R6, R18). -/
def Claims.TakenBurstEndsAtCloseOrCut : Prop :=
  ∀ (c : Channel) (lost : Bool) (tail : List Byte) (s : State), s.resetHeld = false →
    s.lc.burst = some (.taken c lost) → (lost = true ∨ tail.length < 5) →
    exec (.normalClose tail) s =
      .next (Claims.burstEnded (if lost = true ∨ tail = [] then s else s.flagCut c)) ∧
    exec (.cut tail) s = .next (Claims.burstEnded (s.flagCut c))

/-- TURN_CLOSE of a taken burst: the reply burst carries a Link Report if the record is not empty, then
every queued reply, oldest first, or else a single Nothing, each with the channel's number; record and
queue are emptied, and nothing else changes (R10, R12). A partial packet has set CUT before (R2). -/
def Claims.TurnCloseIsAnswered : Prop :=
  ∀ (c : Channel) (lost : Bool) (tail : List Byte) (s : State), s.resetHeld = false →
    s.lc.burst = some (.taken c lost) → (lost = true ∨ tail.length < 5) →
    let e := if lost = true ∨ tail = [] then s.lc.errors[c] else { s.lc.errors[c] with cut := true }
    let queued := s.lc.replies[c].flatMap (replyPacketsOf c)
    exec (.turnClose tail) s =
      .next (s.withLc
        { s.lc with
          burst := none
          replyBurst := some
            { channel := c
              packets :=
                if e.isEmpty then (if queued = [] then [nothingPacket c] else queued)
                else linkReportPacket c e :: queued }
          errors := s.lc.errors.set c ErrorRecord.empty
          replies := s.lc.replies.set c [] })

/-- A burst that ends inside a packet whose header was received whole: the header's check of R5, steps 1
to 4, is recorded with CUT at a close (the model's reading of R5 and R2, log 5). A normal close and a cut are
not answered; a turn close is, by the turnaround of a burst whose end records nothing more (R2, R12). -/
def Claims.PartialPacketIsRecordedAtClose : Prop :=
  ∀ (c : Channel) (tail : List Byte) (s : State), s.resetHeld = false →
    s.lc.burst = some (.taken c false) → 5 ≤ tail.length →
    let h := headerOfBytes tail
    let t :=
      match headerError h c with
      | none => s.flagCut c
      | some .headerBad => (s.withLc { s.lc with burst := some (.taken c true) }).flagHeaderBad c
      | some .wrongChannel => (s.flagWrongChannel c).flagCut c
      | some .unknownKind => (s.refuse c h.kind .unknownKind).flagCut c
      | some .notPermitted => (s.refuse c h.kind .notPermitted).flagCut c
      | some .payloadBad => s
    exec (.normalClose tail) s = .next (Claims.burstEnded t) ∧
    exec (.cut tail) s = .next (Claims.burstEnded (t.flagCut c)) ∧
    exec (.turnClose tail) s =
      exec (.turnClose []) (t.withLc { t.lc with burst := some (.taken c true) })

/-- A burst ignored from the end of the grace sets CUT when it ends, one opened in IDLE records nothing;
neither is answered, whichever way it ends (R1, R12, R19). That CUT is all a burst ignored from the end of the
grace leaves, a whole header in its last bytes included, is the model's choice (log 19). -/
def Claims.IgnoredBurstsAreNotAnswered : Prop :=
  ∀ (tail : List Byte) (s : State) (i : Instr), s.resetHeld = false →
    (i = .normalClose tail ∨ i = .turnClose tail ∨ i = .cut tail) →
    (∀ c : Channel, s.lc.burst = some (.afterGrace c) →
      exec i s =
        .next (s.withLc
          { s.lc with
            burst := none, errors := s.lc.errors.set c { s.lc.errors[c] with cut := true } })) ∧
    (s.lc.burst = some .unheard → exec i s = .next (s.withLc { s.lc with burst := none }))

/-- Steps 1 to 4 of R5 on a header for a burst of channel `c`, the first that fails deciding; the header is
the first five bytes received (R5, 11.1). -/
def Claims.HeaderChecksInOrder : Prop :=
  (∀ (kind control high low check : Byte) (rest : List Byte),
    headerOfBytes (kind :: control :: high :: low :: check :: rest) =
      { kind, control, param := high ++ low, check }) ∧
  ∀ (h : Header) (c : Channel),
    (headerOk h = false → headerError h c = some .headerBad) ∧
    (headerOk h = true →
      (h.control.toNat % 4 ≠ c.val → headerError h c = some .wrongChannel) ∧
      (h.control.toNat % 4 = c.val →
        (kindOfCode h.kind = none → headerError h c = some .unknownKind) ∧
        ∀ k, kindOfCode h.kind = some k →
          headerError h c = if kindPermitted k c = true then none else some .notPermitted))

/-- The end of an exchange takes the grant of a holder whose request line is low, with the grace over, and
leaves it to any other (R18, R19). -/
def Claims.EndOfAnExchange : Prop :=
  ∀ (now : Nat) (l : LinkState),
    (∀ c from_, l.grant = .held c from_ → l.requestLine[c] = false →
      endExchange now l =
        if l.busy then { l with grant := .withdrawing c none, holdFrom := none }
        else grantDecision now { l with grant := .withdrawing c none, holdFrom := none }) ∧
    ((∀ c from_, l.grant = .held c from_ → l.requestLine[c] = true) → endExchange now l = l)

/-- `Claims.TakenBurstEndsAtCloseOrCut`, `Claims.PartialPacketIsRecordedAtClose`,
`Claims.IgnoredBurstsAreNotAnswered`, `Claims.HeaderChecksInOrder`, `Claims.EndOfAnExchange`, each with the
rules it names. A turn close of a taken burst is answered; the name is for the other ends. -/
def Obligations.BurstsEndUnanswered : Prop :=
  Claims.TakenBurstEndsAtCloseOrCut ∧
    Claims.PartialPacketIsRecordedAtClose ∧
    Claims.IgnoredBurstsAreNotAnswered ∧
    Claims.HeaderChecksInOrder ∧
    Claims.EndOfAnExchange

/-- REPLY_BURST_END: the device releases the busy line; a holder whose request line is low loses its
grant, and WITHDRAWING ends if no master drives the line (R3, R12, R18, R19). -/
def Claims.ReplyBurstEndReturnsTheLine : Prop :=
  ∀ (r : ReplyBurst) (s : State), s.resetHeld = false → s.lc.replyBurst = some r →
    let l := { s.lc with replyBurst := none }
    exec .replyBurstEnd s = .next (s.withLc
      (match s.lc.grant with
       | .held c _ =>
         if s.lc.requestLine[c] then l
         else if s.lc.masterBusy then { l with grant := .withdrawing c none, holdFrom := none }
         else grantDecision s.localTime { l with grant := .withdrawing c none, holdFrom := none }
       | .withdrawing _ _ => if s.lc.masterBusy then l else grantDecision s.localTime l
       | .idle => l
       | .parked _ => l
       | .offered _ _ => l))

/-- The header check and the payload check take one byte more bit by bit, its most significant bit first, as
the CRC-8 and the CRC-16 of their generators, from a register of 0 and of all ones; the check is the
register after the last byte (R176). -/
def Claims.ChecksAreTheCrcsOfTheirGenerators : Prop :=
  ∀ (l : List Byte) (b : Byte),
    let bits := [7, 6, 5, 4, 3, 2, 1, 0].map fun i => b.getLsbD i
    let take8 (r : BitVec 8) (x : Bool) : BitVec 8 :=
      (r <<< 1) ^^^ (if r.msb ≠ x then 0x07#8 else 0#8)
    let take16 (r : BitVec 16) (x : Bool) : BitVec 16 :=
      (r <<< 1) ^^^ (if r.msb ≠ x then 0x8005#16 else 0#16)
    crc8 [] = 0#8 ∧ crc16 [] = 0xFFFF#16 ∧
      crc8 (l ++ [b]) = bits.foldl take8 (crc8 l) ∧ crc16 (l ++ [b]) = bits.foldl take16 (crc16 l)

/-- A long reply packet: kind, control with the long flag and the channel, length, header check over these
four, payload, payload check with its high byte first (11.1, R174 to R176). -/
def Claims.longPacket (kind : Byte) (c : Channel) (payload : List Byte) : List Byte :=
  let head := [kind, BitVec.ofNat 8 (64 + c.val)] ++ Claims.two payload.length
  head ++ [crc8 head] ++ payload ++ Claims.two (crc16 payload).toNat

/-- A Link Report carries the five flags, the count and the first refusal's kind and reason, 0 and 0 when
there is none; a Nothing is short with parameter 0 (11.3, R175). Bits 7 to 5 of the flags are 0 by the model's
choice (log 22). -/
def Claims.LinkReportAndNothingBytes : Prop :=
  ∀ (c : Channel) (e : ErrorRecord),
    let flags : Byte :=
      0#3 ++ BitVec.ofBool e.lapsed ++ BitVec.ofBool e.wrongChannel ++ BitVec.ofBool e.cut ++
        BitVec.ofBool e.payloadBad ++ BitVec.ofBool e.headerBad
    let code : Reason → Byte
      | .noSuchMark => 1#8 | .futureTime => 2#8 | .clockStopped => 3#8 | .clockRunning => 4#8
      | .badBib => 5#8 | .badValue => 6#8 | .notPresent => 7#8 | .pinLimit => 8#8
      | .replyFull => 9#8 | .notPermitted => 10#8 | .unknownKind => 11#8 | .badLength => 12#8
      | .busyState => 13#8
    linkReportPacket c e =
        Claims.longPacket 0x81#8 c
          ([flags, BitVec.ofNat 8 e.refusals] ++
            match e.first with
            | some (kind, reason) => [kind, code reason]
            | none => [0#8, 0#8]) ∧
      let head : List Byte := [0x82#8, BitVec.ofNat 8 c.val, 0#8, 0#8]
      nothingPacket c = head ++ [crc8 head]

/-- A Record carries its fields in the order and with the absent encodings of 11.5, in 72 bytes. Bits 7 to 4 of
its flags and bits 7 to 5 of a pass block's are 0 by the model's choice (log 22). -/
def Claims.RecordReplyBytes : Prop :=
  ∀ (c : Channel) (slot : Slot) (r : Record) (held : Bool),
    let absent : List Byte := [0xFF#8, 0xFF#8, 0xFF#8, 0xFF#8]
    let long (x : Option Nat) : List Byte := (x.map Claims.four).getD absent
    let eighth (x : Option (Fin 8)) : Byte := (x.map fun k => BitVec.ofNat 8 k.val).getD 0xFF#8
    let source : Source → Byte
      | .markedA => 0#8 | .markedB => 1#8 | .timedA => 2#8 | .timedB => 3#8 | .corrected => 4#8
    let fill : BitVec 2 :=
      match r.fill with
      | .new => 0#2
      | .filled => 1#2
      | .unfilled => 2#2
    let name := r.name.getD []
    let pass (p : Option Pass) (d : Derived) : List Byte :=
      (match p with
        | some q => Claims.four q.tick ++ [source q.source, BitVec.ofNat 8 q.count]
        | none => absent ++ [0xFF#8, 0#8]) ++
        long d.raceTime ++ long d.pace ++ long d.projection ++
        [0#3 ++ BitVec.ofBool d.projCapped ++ BitVec.ofBool d.paceCapped ++
          BitVec.ofBool d.beforeGun ++ BitVec.ofBool d.noGun ++ BitVec.ofBool d.noWave]
    let payload :=
      [BitVec.ofNat 8 slot.val] ++ Claims.two r.bib ++
        [0#4 ++ fill ++ BitVec.ofBool held ++ BitVec.ofBool r.stale, eighth r.pin, eighth r.fillWave,
          eighth r.waveInUse] ++
        (match r.upstream with
          | some (distance, time) => Claims.two distance ++ Claims.four time
          | none => [0#8, 0#8] ++ absent) ++
        [BitVec.ofNat 8 name.length] ++ (name.take 20 ++ List.replicate (20 - name.length) 0x20#8) ++
        pass r.pass1 r.derived1 ++ pass r.pass2 r.derived2
    payload.length = 72 ∧
      replyPacketsOf c (.record slot r held) = [Claims.longPacket 0x83#8 c payload]

/-- A Fill List carries the WAITING left and, for each entry, bib and offers; Log Entries carry the log's
bounds and, for each entry, its 11 bytes; each gives its number of entries before them (11.3, 11.5). No entry
of the log is a DUPLICATE (R105), so no code is claimed for one. Bits 6 to 2 of the info byte are 0 by the
model's choice (log 22). -/
def Claims.FillListAndLogReplyBytes : Prop :=
  ∀ c : Channel,
    (∀ (left : Nat) (bibs : List (Nat × Nat)),
      replyPacketsOf c (.fillList left bibs) =
        [Claims.longPacket 0x84#8 c
          ([BitVec.ofNat 8 left, BitVec.ofNat 8 bibs.length] ++
            bibs.flatMap fun b => Claims.two b.1 ++ [BitVec.ofNat 8 b.2])]) ∧
    ∀ (oldest next : Half) (count : Nat) (entries : List LogEntry),
      (∀ e ∈ entries, e.cls ≠ .duplicate) →
      let info (e : LogEntry) : Byte :=
        BitVec.ofBool e.gapBefore ++ 0#5 ++ BitVec.ofBool e.timed ++
          BitVec.ofBool (decide (e.reader = .b))
      let cls : Machine.Class → Byte
        | .pass1 => 1#8 | .pass2 => 2#8 | .revision1 => 3#8 | .revision2 => 4#8 | .extra => 5#8
        | .duplicate => 0#8
      let entry (e : LogEntry) : List Byte :=
        Claims.two e.number.toNat ++ Claims.two e.bib ++
          [info e, cls e.cls, (e.wave.map fun w => BitVec.ofNat 8 w.val).getD 0xFF#8] ++
          Claims.four e.tick
      (∀ e, (entry e).length = 11) ∧
        replyPacketsOf c (.logEntries oldest count next entries) =
          [Claims.longPacket 0x85#8 c
            (Claims.two oldest.toNat ++ Claims.two count ++ Claims.two next.toNat ++
              [BitVec.ofNat 8 entries.length] ++ entries.flatMap entry)]

/-- A Lines reply of up to 10 lines is one packet; one of more is two, the first with the first 10 lines, the
second with the rest and its own first line, both with the same N and B; a cell's byte holds its character
and, in bit 7, its emphasis (11.3, R175). -/
def Claims.LinesReplyPackets : Prop :=
  ∀ (c : Channel) (n b first : Nat) (rows : List (List Cell)),
    let cell (x : Cell) : Byte := BitVec.ofBool x.emphasis ++ x.char.extractLsb' 0 7
    let packet (first : Nat) (rows : List (List Cell)) : List Byte :=
      Claims.longPacket 0x86#8 c
        ([BitVec.ofNat 8 n, BitVec.ofNat 8 b, BitVec.ofNat 8 first, BitVec.ofNat 8 rows.length] ++
          rows.flatMap fun row => row.map cell)
    (rows.length ≤ 10 → replyPacketsOf c (.lines n b first rows) = [packet first rows]) ∧
      (10 < rows.length →
        replyPacketsOf c (.lines n b first rows) =
          [packet first (rows.take 10), packet (first + 10) (rows.drop 10)])

/-- A Status reply carries its items in the order of 11.5: 29 bytes, 32 with a reader's group. Bits 7 and 6 of
the windows and of the conditions are 0 by the model's choice (log 22). -/
def Claims.StatusReplyBytes : Prop :=
  ∀ (c : Channel) (t : StatusReply),
    let state : Byte :=
      match t.clock.state with
      | .stopped => 0#8
      | .running _ => 1#8
      | .full => 2#8
    let one (n : Nat) : List Byte := [BitVec.ofNat 8 n]
    let common :=
      [state] ++ Claims.four t.clock.value ++ Claims.two t.occupied ++ one t.pinned ++
        Claims.two t.staleFills ++ one t.waiting ++ one t.sent ++ Claims.two t.logOldest.toNat ++
        Claims.two t.logCount ++ Claims.two t.logNext.toNat ++ Claims.two t.logRefused ++
        one t.queued ++ Claims.two t.queueDrops ++
        [(t.shownLevel.map fun k => BitVec.ofNat 8 k.val).getD 0xFF#8] ++ one t.suspended ++
        Claims.two t.featureDrops ++ [0#2 ++ t.unusable, 0#2 ++ t.conditions]
    common.length = 29 ∧
      replyPacketsOf c (.status t) =
        [Claims.longPacket 0x87#8 c
          (common ++
            match t.marks with
            | some (queued, lost, orphan) => one queued ++ one lost ++ one orphan
            | none => [])]

/-- `Claims.TurnCloseIsAnswered`, `Claims.ReplyBurstEndReturnsTheLine`, and the bytes of each reply:
`Claims.ChecksAreTheCrcsOfTheirGenerators`, `Claims.LinkReportAndNothingBytes`, `Claims.RecordReplyBytes`,
`Claims.FillListAndLogReplyBytes`, `Claims.LinesReplyPackets`, `Claims.StatusReplyBytes`. -/
def Obligations.TurnaroundResult : Prop :=
  Claims.TurnCloseIsAnswered ∧
    Claims.ReplyBurstEndReturnsTheLine ∧
    Claims.ChecksAreTheCrcsOfTheirGenerators ∧
    Claims.LinkReportAndNothingBytes ∧
    Claims.RecordReplyBytes ∧
    Claims.FillListAndLogReplyBytes ∧
    Claims.LinesReplyPackets ∧
    Claims.StatusReplyBytes

/-! ### The station link: arbitration (section 1.5) -/

/-- The grant decision: none while the busy line is asserted; else the lowest requesting channel in FIXED
mode, the first in circular order after the last granted in ROTATING; else the park channel; else IDLE.
Tenure and offer timer start together, and nothing else of the link changes (R14). -/
def Obligations.GrantDecisionPicksTheWinner : Prop :=
  ∀ (now : Nat) (l : LinkState),
    (l.busy = true → grantDecision now l = { l with grant := .idle }) ∧
    (l.busy = false →
      ((∀ c : Channel, l.requestLine[c] = false) →
        grantDecision now l =
          { l with grant := match l.park with
              | some p => .parked p
              | none => .idle }) ∧
      (l.mode = .fixed → ∀ c : Channel, l.requestLine[c] = true →
        (∀ d : Channel, d < c → l.requestLine[d] = false) →
        grantDecision now l = { l with grant := .offered c now, lastGranted := c }) ∧
      (l.mode = .rotating → ∀ n : Fin 4, l.requestLine[l.lastGranted + 1 + n] = true →
        (∀ m : Fin 4, m < n → l.requestLine[l.lastGranted + 1 + m] = false) →
        grantDecision now l =
          { l with
            grant := .offered (l.lastGranted + 1 + n) now, lastGranted := l.lastGranted + 1 + n }))

/-- REQUEST_RAISED by grant state: a decision in IDLE; HELD or a withdrawal in PARKED; no effect in
OFFERED and WITHDRAWING; in HELD a withdrawal with a grace when 50 ms of tenure are over and no hold is in
force (R14 to R19). -/
def Claims.RequestRaisedByGrant : Prop :=
  ∀ (c : Channel) (s : State), s.resetHeld = false → s.lc.requestLine[c] = false →
    let l := { s.lc with requestLine := s.lc.requestLine.set c true }
    exec (.requestRaised c) s = .next (s.withLc
      (match s.lc.grant with
       | .idle => grantDecision s.localTime l
       | .parked p =>
         if p = c then { l with grant := .held c s.localTime, lastGranted := c }
         else if s.lc.busy then { l with grant := .withdrawing p none, holdFrom := none }
         else grantDecision s.localTime { l with grant := .withdrawing p none, holdFrom := none }
       | .offered _ _ => l
       | .withdrawing _ _ => l
       | .held d tenureFrom =>
         if (∃ o : Channel, o ≠ d ∧ (o = c ∨ s.lc.requestLine[o] = true)) ∧
             tenureFrom + 50 ≤ s.localTime ∧ s.lc.holdFrom = none then
           if s.lc.busy then { l with grant := .withdrawing d (some s.localTime) }
           else grantDecision s.localTime { l with grant := .withdrawing d (some s.localTime) }
         else l))

/-- REQUEST_DROPPED by grant state: OFFERED of that channel lapses unrecorded; HELD of that channel ends
at once outside an exchange, and inside one loses its hold; other states only note the level (R15, R18,
R19). -/
def Claims.RequestDroppedByGrant : Prop :=
  ∀ (c : Channel) (s : State), s.resetHeld = false → s.lc.requestLine[c] = true →
    let l := { s.lc with requestLine := s.lc.requestLine.set c false }
    let ended (d : Channel) : LinkState := { l with grant := .withdrawing d none, holdFrom := none }
    exec (.requestDropped c) s = .next (s.withLc
      (match s.lc.grant with
       | .idle => l
       | .parked _ => l
       | .withdrawing _ _ => l
       | .offered d _ =>
         if d ≠ c then l
         else if s.lc.busy then ended d else grantDecision s.localTime (ended d)
       | .held d _ =>
         if d ≠ c then l
         else if s.lc.burst = none ∧ s.lc.replyBurst = none then
           (if s.lc.busy then ended d else grantDecision s.localTime (ended d))
         else if s.lc.holdFrom = none then l
         else withdrawalTest s.localTime { l with holdFrom := none }))

/-- `Claims.RequestRaisedByGrant`, `Claims.RequestDroppedByGrant`, each with the rules it names. -/
def Obligations.RequestLinesMoveTheArbiter : Prop :=
  Claims.RequestRaisedByGrant ∧
    Claims.RequestDroppedByGrant

/-- BUSY_RELEASE with no burst open: WITHDRAWING ends in a grant decision unless a reply burst is being
sent, and IDLE takes the decision the busy line held back (R3, R14, R19). -/
def Claims.BusyReleaseLetsTheGrantPass : Prop :=
  ∀ s : State, s.resetHeld = false → s.lc.masterBusy = true → s.lc.burst = none →
    let l := { s.lc with masterBusy := false }
    exec .busyRelease s = .next (s.withLc
      (match s.lc.grant with
       | .idle => grantDecision s.localTime l
       | .withdrawing _ _ => if s.lc.replyBurst.isSome then l else grantDecision s.localTime l
       | .parked _ => l
       | .offered _ _ => l
       | .held _ _ => l))

/-- OFFER_TIMER_EXPIRY after 20 ms in OFFERED: LAPSED is set, the grant is lowered with the grace over,
and WITHDRAWING ends at once if the line is free; before 20 ms nothing happens (R15, R19). A burst open waiting
right behind the expiry is on the line already and keeps it busy (the model's reading of R15, log 20). -/
def Claims.OfferLapsesAfter20ms : Prop :=
  ∀ (c : Channel) (since : Nat) (s : State), s.resetHeld = false → s.lc.grant = .offered c since →
    let l :=
      { s.lc with
        errors := s.lc.errors.set c { s.lc.errors[c] with lapsed := true }
        grant := .withdrawing c none
        holdFrom := none }
    exec .offerTimerExpiry s = .next
      (if since + 20 ≤ s.localTime then
        s.withLc
          (if s.pending.head? = some .openPattern then { l with masterBusy := true }
           else if s.lc.busy then l
           else grantDecision s.localTime l)
       else s)

/-- A burst open and the offer timer's expiry close together, one right behind the other in the queue: the open
taken first moves the arbiter to HELD, the burst is taken and the expiry does not happen; the expiry taken first
lapses the grant, and the burst is ignored as one after the grace, its close by rest or by either pattern
setting CUT (R15, R19; what close together means is the model's choice, log 20). -/
def Claims.BurstOpenAndExpiryCloseTogether : Prop :=
  ∀ (c : Channel) (since : Nat) (rest : List Instr) (s : State), s.resetHeld = false →
    s.lc.grant = .offered c since → s.lc.burst = none → s.lc.replyBurst = none →
    since + 20 ≤ s.localTime →
    (s.pending = .openPattern :: .offerTimerExpiry :: rest →
      ∃ t u, step s = .next t ∧ step t = .next u ∧ u.pending = rest ∧ u.lc.errors = s.lc.errors ∧
        u.lc.grant = .held c since ∧ u.hearing = some c) ∧
    (s.pending = .offerTimerExpiry :: .openPattern :: rest →
      ∃ t u, step s = .next t ∧ step t = .next u ∧ u.pending = rest ∧ t.grantLine c = false ∧
        u.lc.errors = s.lc.errors.set c { s.lc.errors[c] with lapsed := true } ∧
        u.lc.grant = .withdrawing c none ∧ u.hearing = none ∧
        ∀ (i : Instr) (tail : List Byte),
          i = .normalClose tail ∨ i = .turnClose tail ∨ i = .cut tail →
          ∃ v, exec i u = .next v ∧ v.lc.replyBurst = none ∧ v.lc.errors[c].cut = true)

/-- The grant line of a channel is raised in PARKED, OFFERED and HELD of that channel alone; the busy line is
asserted while a master drives it or the device sends a reply burst (R3, R13). -/
def Claims.GrantLinesAndBusyLine : Prop :=
  ∀ (s : State) (c : Channel),
    (s.grantLine c = true ↔
      s.lc.grant = .parked c ∨ (∃ t, s.lc.grant = .offered c t) ∨ ∃ t, s.lc.grant = .held c t) ∧
    (s.lc.busy = true ↔ s.lc.masterBusy = true ∨ s.lc.replyBurst ≠ none)

/-- TENURE_REACHED and HOLD_LIMIT in HELD: the grant is withdrawn, with a grace, when another channel
asks, 50 ms of tenure are over and no hold is in force; HOLD_LIMIT first ends a hold of 500 ms, and does
nothing before (R17, R20). -/
def Claims.WithdrawalAtTenureAndHoldLimit : Prop :=
  ∀ (c : Channel) (tenureFrom : Nat) (s : State), s.resetHeld = false →
    s.lc.grant = .held c tenureFrom →
    let asked : Prop := ∃ d : Channel, d ≠ c ∧ s.lc.requestLine[d] = true
    let l := { s.lc with grant := .withdrawing c (some s.localTime), holdFrom := none }
    let lowered := if s.lc.busy then l else grantDecision s.localTime l
    (s.lc.holdFrom = none → asked → tenureFrom + 50 ≤ s.localTime →
      exec .tenureReached s = .next (s.withLc lowered)) ∧
    (¬ (s.lc.holdFrom = none ∧ asked ∧ tenureFrom + 50 ≤ s.localTime) →
      exec .tenureReached s = .next s) ∧
    ∀ start : Nat, s.lc.holdFrom = some start →
      (s.localTime < start + 500 → exec .holdLimit s = .next s) ∧
      (start + 500 ≤ s.localTime →
        (asked ∧ tenureFrom + 50 ≤ s.localTime →
          exec .holdLimit s = .next (s.withLc lowered)) ∧
        (¬ (asked ∧ tenureFrom + 50 ≤ s.localTime) →
          exec .holdLimit s = .next (s.withLc { s.lc with holdFrom := none })))

/-- WITHDRAWAL_GRACE_END after 20 ms: the grace is over and the bytes of a taken burst still open are
ignored from then on; before 20 ms nothing happens (R19). That a packet of it not yet whole records nothing,
whatever its header's check decided before, is the model's choice (log 19). -/
def Claims.GraceEndsAfter20ms : Prop :=
  ∀ (c : Channel) (start : Nat) (s : State), s.resetHeld = false →
    s.lc.grant = .withdrawing c (some start) →
    exec .withdrawalGraceEnd s = .next
      (if start + 20 ≤ s.localTime then
        s.withLc
          { s.lc with
            grant := .withdrawing c none
            burst := match s.lc.burst with
              | some (.taken d _) => some (.afterGrace d)
              | other => other }
       else s)

/-- `Claims.BusyReleaseLetsTheGrantPass`, `Claims.OfferLapsesAfter20ms`,
`Claims.BurstOpenAndExpiryCloseTogether`, `Claims.GraceEndsAfter20ms`, `Claims.GrantLinesAndBusyLine`, each
with the rules it names. -/
def Obligations.GrantsLapseAndPass : Prop :=
  Claims.BusyReleaseLetsTheGrantPass ∧
    Claims.OfferLapsesAfter20ms ∧
    Claims.BurstOpenAndExpiryCloseTogether ∧
    Claims.GraceEndsAfter20ms ∧
    Claims.GrantLinesAndBusyLine

/-- Arbitration Setup stores both values, or refuses an undefined mode or park code and keeps both; the
grant and the last granted channel are not moved (R21). -/
def Obligations.ArbitrationSetupStoresBoth : Prop :=
  ∀ (c : Channel) (p : Packet) (s : State), Delivered .arbitrationSetup c p s →
    let mode := paramOf p / 256
    let park := paramOf p % 256
    exec (.arbitrationSetup p) s = .next
      (if mode ≤ 1 ∧ (park < 4 ∨ park = 0xFF) then
        s.withLc
          { s.lc with
            mode := if mode = 0 then .fixed else .rotating
            park := if h' : park < 4 then some ⟨park, h'⟩ else none }
       else s.refuse c 0x1F#8 .badValue)

/-- Hold puts a hold in force for the holder in HELD unless one is; Release Hold ends the holder's hold
and then the withdrawal conditions are tested. Neither is refused, and elsewhere neither has an effect
(R20). -/
def Claims.HoldAndReleaseHold : Prop :=
  ∀ (c : Channel) (p : Packet) (s : State),
    (Delivered .hold c p s →
      ((∃ t, s.lc.grant = .held c t) → s.lc.holdFrom = none →
        exec (.hold p) s = .next (s.withLc { s.lc with holdFrom := some s.localTime })) ∧
      (s.lc.holdFrom ≠ none ∨ (∀ t, s.lc.grant ≠ .held c t) → exec (.hold p) s = .next s)) ∧
    (Delivered .releaseHold c p s →
      (∀ t, s.lc.grant = .held c t → s.lc.holdFrom ≠ none →
        exec (.releaseHold p) s =
          .next (s.withLc (withdrawalTest s.localTime { s.lc with holdFrom := none }))) ∧
      (s.lc.holdFrom = none ∨ (∀ t, s.lc.grant ≠ .held c t) → exec (.releaseHold p) s = .next s))

/-- The withdrawal test in HELD: with another channel asking, 50 ms of tenure over and no hold in force the
grant is lowered, the grace starts, and WITHDRAWING ends at once if the line is free; without all three, or in
another state, nothing changes (R17, R19). -/
def Claims.WithdrawalTestResult : Prop :=
  ∀ (now : Nat) (l : LinkState),
    ((∀ c from_, l.grant ≠ .held c from_) → withdrawalTest now l = l) ∧
    ∀ c from_, l.grant = .held c from_ →
      withdrawalTest now l =
        if (∃ d : Channel, d ≠ c ∧ l.requestLine[d] = true) ∧ from_ + 50 ≤ now ∧ l.holdFrom = none then
          if l.busy then { l with grant := .withdrawing c (some now) }
          else grantDecision now { l with grant := .withdrawing c (some now) }
        else l

/-- `Claims.WithdrawalAtTenureAndHoldLimit`, `Claims.HoldAndReleaseHold`, `Claims.WithdrawalTestResult`, each
with the rules it names. -/
def Obligations.WithdrawalsAndHolds : Prop :=
  Claims.WithdrawalAtTenureAndHoldLimit ∧
    Claims.HoldAndReleaseHold ∧
    Claims.WithdrawalTestResult

/-- The arbiter and the line agree at every step: a heard burst is the granted channel's, no channel waits
at a free line, a hold is in force only in HELD, WITHDRAWING lasts only while the line is busy (R1, R13 to
R20). -/
def Obligations.EveryStepKeepsArbiterSound : Prop :=
  ∀ s t : State, ArbiterSound s → step s = .next t → ArbiterSound t

/-! ### Race clock, marks and waves (chapter 2) -/

/-- Clock Set: a tick above the maximum is refused BAD_VALUE in every state, then a RUNNING clock refuses
CLOCK_RUNNING; else the value becomes the tick, RUNNING with a fresh tick interval below the maximum, FULL
at it. Nothing is touched but the clock and what a change of its value reaches: the idle band clock and
the head test (R24, R27). -/
def Obligations.ClockSetResult : Prop :=
  ∀ (c : Channel) (p : Packet) (s : State), Delivered .clockSet c p s →
    let tick := longAt (payloadOf p) 0
    let set (k : Clock) : State := clockValueChanged { s with cmu := { s.cmu with clock := k } }
    exec (.clockSet p) s = .next
      (if 16777215 < tick then s.refuse c 0x03#8 .badValue
       else
        match s.cmu.clock.state with
        | .running _ => s.refuse c 0x03#8 .clockRunning
        | _ =>
          if tick = 16777215 then set { value := 16777215, state := .full }
          else set { value := tick, state := .running s.localTime }) ∧
    ∀ k : Clock, OnlyList { s with cmu := { s.cmu with clock := k } } (set k)

/-- Clock Stop is carried out in every clock state and never refused: RUNNING and FULL enter STOPPED and
keep the value, and the idle band clock is rendered again for the change of the clock state; STOPPED changes
nothing; marks stay queued (R25, R135). -/
def Obligations.ClockStopResult : Prop :=
  ∀ (c : Channel) (p : Packet) (s : State), Delivered .clockStop c p s →
    let cmu := { s.cmu with clock := { value := s.cmu.clock.value, state := .stopped } }
    ∃ t, exec (.clockStop p) s = .next t ∧ t.cmu = cmu ∧ OnlyImage (s.withCmu cmu) t ∧
      (s.cmu.clock.state = .stopped → t = s) ∧
      (s.cmu.clock.state ≠ .stopped → t = renderIdleClock (s.withCmu cmu))

/-- Clock Trim: the amount is clamped to -500 to +500; in RUNNING the sum becomes the value, 0 if it lies
below 0, FULL at the maximum if it reaches it, and the tick interval goes on; a trim of 0 changes nothing;
in STOPPED and FULL it is refused CLOCK_STOPPED (R26). -/
def Obligations.ClockTrimResult : Prop :=
  ∀ (c : Channel) (p : Packet) (s : State), Delivered .clockTrim c p s →
    let sum : Int := s.cmu.clock.value + max (-500) (min 500 (bodyParam p.body).toInt)
    let set (k : Clock) : State := clockValueChanged { s with cmu := { s.cmu with clock := k } }
    exec (.clockTrim p) s = .next
      (match s.cmu.clock.state with
       | .running start =>
         if 16777215 ≤ sum then set { value := 16777215, state := .full }
         else if sum.toNat = s.cmu.clock.value then s
         else set { value := sum.toNat, state := .running start }
       | .stopped => s.refuse c 0x05#8 .clockStopped
       | .full => s.refuse c 0x05#8 .clockStopped)

/-- CLOCK_ADVANCE at the end of a 10 ms tick interval: one tick more and the next interval at once, or
FULL at the maximum; before that, and outside RUNNING, nothing happens (R23). -/
def Claims.ClockAdvanceResult : Prop :=
  ∀ s : State, s.resetHeld = false →
    let set (k : Clock) : State := clockValueChanged { s with cmu := { s.cmu with clock := k } }
    exec .clockAdvance s = .next
      (match s.cmu.clock.state with
       | .running start =>
         if s.localTime < start + 10 then s
         else if 16777214 ≤ s.cmu.clock.value then set { value := 16777215, state := .full }
         else set { value := s.cmu.clock.value + 1, state := .running (start + 10) }
       | .stopped => s
       | .full => s)

/-- What a change of the clock's value reaches: the board queue, the list lines with their top offset and drop
count, the hold counts and the board image; every setting, the list's four among them, and all else stay as
they are (R27, R135, R146). -/
def Claims.ClockChangeReachesOnlyTheBoard : Prop :=
  ∀ s : State, OnlyList s (clockValueChanged s)

/-- MARK_PULSE: the next mark number is always consumed; outside RUNNING the pulse is lost; in RUNNING an
older mark of that number leaves as an orphan, and the pulse is captured with number, clock value and
local time unless 32 marks are queued, when it is lost. Counts stay at 255 (R29, R32). -/
def Claims.MarkPulseResult : Prop :=
  ∀ (r : Reader) (s : State), s.resetHeld = false →
    let m := s.cmu.marks r
    let n := m.next
    let counts := s.att.counts r
    let kept := m.queue.filter fun x => x.number ≠ n
    let mark : Mark := { number := n, tick := s.cmu.clock.value, captured := s.localTime }
    let lost := { counts with lost := min 255 (counts.lost + 1) }
    let orphaned := { counts with orphan := min 255 (counts.orphan + 1) }
    let put (q : List Mark) (k : MarkCounts) : State :=
      (s.withCmu (s.cmu.withMarks r { queue := q, next := n + 1 })).withAtt (s.att.withCounts r k)
    (s.cmu.clock.isRunning = false → exec (.markPulse r) s = .next (put m.queue lost)) ∧
    (s.cmu.clock.isRunning = true →
      ((∀ x ∈ m.queue, x.number ≠ n) →
        (m.queue.length < 32 → exec (.markPulse r) s = .next (put (m.queue ++ [mark]) counts)) ∧
        (32 ≤ m.queue.length → exec (.markPulse r) s = .next (put m.queue lost))) ∧
      ((∃ x ∈ m.queue, x.number = n) → m.queue.length ≤ 32 →
        exec (.markPulse r) s = .next (put (kept ++ [mark]) orphaned)))

/-- MARK_EXPIRY of a mark captured 10,000 ms ago: it leaves the queue, the others keep their order, and
the orphan count rises, in every clock state; a mark captured later stays (R30). -/
def Claims.MarkExpiryResult : Prop :=
  ∀ (r : Reader) (n : BitVec 8) (s : State), s.resetHeld = false →
    let m := s.cmu.marks r
    let counts := s.att.counts r
    exec (.markExpiry r n) s = .next
      (if ∃ x ∈ m.queue, x.number = n ∧ x.captured + 10000 ≤ s.localTime then
        (s.withCmu
            (s.cmu.withMarks r { m with queue := m.queue.filter fun x => x.number ≠ n })).withAtt
          (s.att.withCounts r { counts with orphan := min 255 (counts.orphan + 1) })
       else s)

/-- Each reader has its own mark queue, next mark number and trouble counts (R28, R32). -/
def Claims.EachReaderHasItsOwn : Prop :=
  (∀ x : CmuState, x.marks .a = x.marksA ∧ x.marks .b = x.marksB ∧
    ∀ m, x.withMarks .a m = { x with marksA := m } ∧ x.withMarks .b m = { x with marksB := m }) ∧
  (∀ a : AttentionState, a.counts .a = a.countsA ∧ a.counts .b = a.countsB ∧
    ∀ m, a.withCounts .a m = { a with countsA := m } ∧ a.withCounts .b m = { a with countsB := m }) ∧
  ∀ k : Clock, k.isRunning = true ↔ ∃ start, k.state = .running start

/-- `Claims.ClockAdvanceResult`, `Claims.MarkPulseResult`, `Claims.MarkExpiryResult`,
`Claims.EachReaderHasItsOwn`, each with the rules it names. -/
def Obligations.ClockAndMarkEvents : Prop :=
  Claims.ClockAdvanceResult ∧
    Claims.MarkPulseResult ∧
    Claims.MarkExpiryResult ∧
    Claims.EachReaderHasItsOwn

/-- Wave Set: the checks in the order of R34, the first that fails refusing the request; else the range
and the gun are stored, with what `WaveChangeGivesTriggers` says of the entry. -/
def Claims.WaveSetChecksAndStores : Prop :=
  ∀ (c : Channel) (p : Packet) (s : State), Delivered .waveSet c p s →
    let l := payloadOf p
    let first := halfAt l 2
    let last := halfAt l 4
    let refused (reason : Reason) := s.refuse c 0x06#8 reason
    exec (.waveSet p) s = .next
      (if h : byteAt l 0 < 8 then
        let w : Wave := ⟨byteAt l 0, h⟩
        if 1 < byteAt l 1 ∨ 2 < byteAt l 6 then refused .badValue
        else if byteAt l 1 = 0 ∧ (first = 0 ∨ 65534 < first ∨ last = 0 ∨ 65534 < last) then
          refused .badBib
        else if byteAt l 1 = 0 ∧ last < first then refused .badValue
        else if byteAt l 6 = 0 ∧ 16777215 < longAt l 7 then refused .badValue
        else
          storeWave w
            { range := if byteAt l 1 = 0 then some (first, last) else none
              gun :=
                if byteAt l 6 = 0 then some (longAt l 7)
                else if byteAt l 6 = 1 then none
                else s.cmu.waves[w].gun }
            s
       else refused .badValue)

/-- Gun Clear: a wave above 7 is refused BAD_VALUE; else the gun is made absent and the range kept (R35). -/
def Claims.GunClearResult : Prop :=
  ∀ (c : Channel) (p : Packet) (s : State), Delivered .gunClear c p s →
    exec (.gunClear p) s = .next
      (if h : paramOf p < 8 then
        storeWave ⟨paramOf p, h⟩ { s.cmu.waves[paramOf p] with gun := none } s
       else s.refuse c 0x07#8 .badValue)

/-- Storing a wave's entry: the pass is put in flight at slot 0 exactly when range or gun changed; a
changed gun marks the occupied slots whose stored wave in use is the wave, a changed range those whose
record has no fill wave; marks stay set; the idle band clock is rendered again exactly when the clock wave's gun
changed, and the image stays as it is otherwise; no other wave, no other field of a record and no other block
changes (R34 to R36, R135). -/
def Claims.WaveChangeGivesTriggers : Prop :=
  ∀ (w : Wave) (e : WaveEntry) (s : State),
    let t := storeWave w e s
    let gun : Prop := s.cmu.waves[w].gun ≠ e.gun
    let range : Prop := s.cmu.waves[w].range ≠ e.range
    t.cmu = { s.cmu with waves := s.cmu.waves.set w e } ∧
    (gun ∨ range → t.sa.position = some 0) ∧ (¬ (gun ∨ range) → t.sa = s.sa) ∧
    (∀ (i : Slot),
      t.rt.slots[i] = s.rt.slots[i].map fun r =>
        if (gun ∧ r.waveInUse = some w) ∨ (range ∧ r.fillWave = none) then { r with stale := true }
        else r) ∧
    (gun → w = s.bi.clockWave → t.bi = (renderIdleClock (s.withCmu t.cmu)).bi) ∧
    (¬ gun ∨ w ≠ s.bi.clockWave → t.bi = s.bi) ∧
    OnlyImage ((s.withCmu t.cmu).withSa t.sa |>.withRt { s.rt with slots := t.rt.slots }) t

/-- `Claims.WaveSetChecksAndStores`, `Claims.GunClearResult`, `Claims.WaveChangeGivesTriggers`, each
with the rules it names. -/
def Obligations.WaveTableRequests : Prop :=
  Claims.WaveSetChecksAndStores ∧
    Claims.GunClearResult ∧
    Claims.WaveChangeGivesTriggers

/-- The clock and both mark queues keep their ranges and their order at every step (R23, R28). -/
def Obligations.EveryStepKeepsTimeSound : Prop :=
  ∀ s t : State, TimeSound s → step s = .next t → TimeSound t

/-! ### Crossing intake (chapter 3) -/

/-- Point Setup is refused CLOCK_RUNNING while the clock runs, then BAD_VALUE for a value out of range;
else all five settings are stored, the window clamped, and nothing else changes (R43, R44). -/
def Obligations.PointSetupResult : Prop :=
  ∀ (c : Channel) (p : Packet) (s : State), Delivered .pointSetup c p s →
    let x := payloadOf p
    let l := halfAt x 0
    let d1 := halfAt x 2
    let d2 := halfAt x 4
    let g := longAt x 6
    exec (.pointSetup p) s = .next
      (if s.cmu.clock.isRunning = true then s.refuse c 0x08#8 .clockRunning
       else if l < 1000 ∨ 60000 < l ∨ l < d1 ∨ (d2 ≠ 0 ∧ (d2 ≤ d1 ∨ l < d2)) ∨ g < 6000 ∨ 360000 < g then
        s.refuse c 0x08#8 .badValue
       else
        { s with
          ci := { courseLength := l, d1, d2, gap := g, window := max 100 (min 3000 (halfAt x 10)) } })

/-- Step 4 of a crossing gives the class of the first row of R50 whose condition holds, the rows read on
exact integers so that p - w may lie below 0. -/
def Obligations.ClassificationFollowsTheTable : Prop :=
  ∀ (point : PointSettings) (r : Record) (x : Nat),
    let w : Int := point.window
    (r.pass1 = none → classify point r x = .pass1) ∧
    (∀ p1, r.pass1 = some p1 → r.pass2 = none →
      ((p1.tick : Int) - w ≤ x ∧ x < p1.tick → classify point r x = .revision1) ∧
      (p1.tick ≤ x ∧ (x : Int) ≤ p1.tick + w → classify point r x = .duplicate) ∧
      (¬ ((p1.tick : Int) - w ≤ x ∧ (x : Int) ≤ p1.tick + w) →
        (point.d2 ≠ 0 ∧ p1.tick + point.gap ≤ x → classify point r x = .pass2) ∧
        (¬ (point.d2 ≠ 0 ∧ p1.tick + point.gap ≤ x) → classify point r x = .extra))) ∧
    (∀ p1 p2, r.pass1 = some p1 → r.pass2 = some p2 →
      ((p2.tick : Int) - w ≤ x ∧ x < p2.tick → classify point r x = .revision2) ∧
      (p2.tick ≤ x ∧ (x : Int) ≤ p2.tick + w → classify point r x = .duplicate) ∧
      (¬ ((p2.tick : Int) - w ≤ x ∧ (x : Int) ≤ p2.tick + w) → classify point r x = .extra))

/-- Crossing Report: a mark of the named number in the reader's own queue leaves it and gives the tick;
without one the report is refused NO_SUCH_MARK and nothing else changes; a bad bib is refused after the
claim; else steps 3 to 8 run on the bib's slot, which an absent bib is first given (R31, R45, R46, R48). -/
def Claims.CrossingReportResult : Prop :=
  ∀ (c : Channel) (p : Packet) (s : State) (r : Reader), Delivered .crossingReport c p s →
    (c = 0 ∧ r = .a) ∨ (c = 1 ∧ r = .b) →
    let bib := halfAt (payloadOf p) 0
    let number := halfAt (payloadOf p) 2
    let m := s.cmu.marks r
    ((∀ x ∈ m.queue, x.number.toNat ≠ number) →
      exec (.crossingReport p) s = .next (s.refuse c 0x01#8 .noSuchMark)) ∧
    (∀ (before rest : List Mark) (x : Mark), m.queue = before ++ x :: rest →
      x.number.toNat = number → (m.queue.map fun y => y.number).Nodup →
      let t := s.withCmu (s.cmu.withMarks r { m with queue := before ++ rest })
      (bib = 0 ∨ 65534 < bib → exec (.crossingReport p) s = .next (t.refuse c 0x01#8 .badBib)) ∧
      (1 ≤ bib ∧ bib ≤ 65534 →
        (∀ i, s.rt.lookup bib = some i →
          exec (.crossingReport p) s = .next (crossSlot i r false x.tick t)) ∧
        (∀ i u, s.rt.lookup bib = none → allocateForCrossing bib t = some (i, u) →
          exec (.crossingReport p) s = .next (crossSlot i r false x.tick u))))

/-- Timed Crossing Report: CLOCK_STOPPED while the clock is STOPPED, FUTURE_TIME for a tick beyond the
clock value, BAD_BIB, in that order; else steps 3 to 8 with the reported tick. The mark queues are not
touched (R45, R47, R48). -/
def Claims.TimedCrossingReportResult : Prop :=
  ∀ (c : Channel) (p : Packet) (s : State) (r : Reader), Delivered .timedCrossingReport c p s →
    (c = 0 ∧ r = .a) ∨ (c = 1 ∧ r = .b) →
    let bib := halfAt (payloadOf p) 0
    let x := longAt (payloadOf p) 2
    (s.cmu.clock.state = .stopped →
      exec (.timedCrossingReport p) s = .next (s.refuse c 0x02#8 .clockStopped)) ∧
    (s.cmu.clock.state ≠ .stopped →
      (s.cmu.clock.value < x →
        exec (.timedCrossingReport p) s = .next (s.refuse c 0x02#8 .futureTime)) ∧
      (x ≤ s.cmu.clock.value →
        (bib = 0 ∨ 65534 < bib →
          exec (.timedCrossingReport p) s = .next (s.refuse c 0x02#8 .badBib)) ∧
        (1 ≤ bib ∧ bib ≤ 65534 →
          (∀ i, s.rt.lookup bib = some i →
            exec (.timedCrossingReport p) s = .next (crossSlot i r true x s)) ∧
          (∀ i u, s.rt.lookup bib = none → allocateForCrossing bib s = some (i, u) →
            exec (.timedCrossingReport p) s = .next (crossSlot i r true x u)))))

/-- `Claims.CrossingReportResult`, `Claims.TimedCrossingReportResult`, each with the rules it names.
-/
def Obligations.CrossingReportsAreTaken : Prop :=
  Claims.CrossingReportResult ∧
    Claims.TimedCrossingReportResult

/-- Steps 4 and 5: the crossing's record gets the pass of its class, with the report's source, marked or timed
by its reader, and a read count that stays at 255, and is derived again for a pass or a revision; every other
record stays as it is, and so do the fill list, the clock unit, the point settings and the pass state (R51,
R53). -/
def Claims.CrossingUpdatesTheRecord : Prop :=
  ∀ (i : Slot) (reader : Reader) (timed : Bool) (x : Nat) (r : Record) (s : State),
    s.rt.slots[i] = some r →
    let t := crossSlot i reader timed x s
    let source : Source :=
      match reader, timed with
      | .a, false => .markedA
      | .b, false => .markedB
      | .a, true => .timedA
      | .b, true => .timedB
    let revised (q : Pass) : Pass := { tick := x, source, count := min 255 (q.count + 1) }
    let counted (q : Pass) : Pass := { q with count := min 255 (q.count + 1) }
    let derived (q : Record) : Record := derive s.cmu.waves s.ci q
    (∀ j : Slot, j ≠ i → t.rt.slots[j] = s.rt.slots[j]) ∧
    t.rt.slots[i] = some
      (match classify s.ci r x with
       | .pass1 => derived { r with pass1 := some { tick := x, source, count := 1 } }
       | .pass2 => derived { r with pass2 := some { tick := x, source, count := 1 } }
       | .revision1 => derived { r with pass1 := r.pass1.map revised }
       | .revision2 => derived { r with pass2 := r.pass2.map revised }
       | .duplicate =>
         if r.pass2.isSome then { r with pass2 := r.pass2.map counted }
         else { r with pass1 := r.pass1.map counted }
       | .extra => r) ∧
    t.rt.fills = s.rt.fills ∧ t.rt.staleFills = s.rt.staleFills ∧ t.cmu = s.cmu ∧ t.ci = s.ci ∧
    t.sa = s.sa ∧ t.lc = s.lc ∧ t.att = s.att

/-- Step 6: every class but DUPLICATE is appended with the next number and the armed gap flag while the log
holds fewer than 2,048 entries; a full log refuses the append, counts it and arms the gap flag (R54, R55,
R108, R109). -/
def Claims.CrossingIsLogged : Prop :=
  ∀ (i : Slot) (reader : Reader) (timed : Bool) (x : Nat) (r q : Record) (s : State),
    s.rt.slots[i] = some r → (crossSlot i reader timed x s).rt.slots[i] = some q →
    let cls := classify s.ci r x
    (crossSlot i reader timed x s).sl =
      if cls = .duplicate then s.sl
      else if s.sl.entries.length < 2048 then
        { s.sl with
          entries := s.sl.entries ++
            [{ number := s.sl.next, bib := r.bib, reader, timed, tick := x, cls,
               wave := q.waveInUse, gapBefore := s.sl.gapArmed }]
          next := s.sl.next + 1
          gapArmed := false }
      else { s.sl with refused := min 65535 (s.sl.refused + 1), gapArmed := true }

/-- Step 7: a PASS1 or PASS2 is a leader feature if the leader flag of its pass is clear, the leader level is
not off and it has a race time, that flag alone being set, even when B is 0; else a runner feature if pinned
at an unmasked level with B at least 1; else an arrival at the list. A revision re-renders, a DUPLICATE or
EXTRA does nothing (R56 to R59). -/
def Obligations.CrossingIsRouted : Prop :=
  ∀ (i : Slot) (pass : PassNo) (x : Nat) (r : Record) (s : State),
    let cls : Machine.Class := if pass = .one then .pass1 else .pass2
    let t := routeCrossing i cls x r s
    let leader : Prop :=
      (pass = .one ∧ s.fc.leader1 = false ∧ r.derived1.raceTime ≠ none) ∨
        (pass = .two ∧ s.fc.leader2 = false ∧ r.derived2.raceTime ≠ none)
    let led := s.withFc
      { s.fc with
        leader1 := if pass = .one then true else s.fc.leader1
        leader2 := if pass = .two then true else s.fc.leader2 }
    (∀ k, s.fc.leaderLevel = some k → leader →
      t =
        if 1 ≤ s.bi.bandHeight then requestFeature k { slot := i, bib := r.bib, kind := .leader } led
        else arrive i r.bib pass x led) ∧
    (s.fc.leaderLevel = none ∨ ¬ leader →
      (∀ k, r.pin = some k → 1 ≤ s.bi.bandHeight → s.fc.mask.getLsbD k.val = false →
        t = requestFeature k { slot := i, bib := r.bib, kind := .runner } s) ∧
      (r.pin = none ∨ s.bi.bandHeight = 0 ∨ (∃ k, r.pin = some k ∧ s.fc.mask.getLsbD k.val = true) →
        t = arrive i r.bib pass x s)) ∧
    routeCrossing i .revision1 x r s = rerender i s ∧ routeCrossing i .revision2 x r s = rerender i s ∧
    routeCrossing i .duplicate x r s = s ∧ routeCrossing i .extra x r s = s

/-- Step 8: a pass or a revision moves the slot to the front of the recency order, the others keeping their
relative order; a DUPLICATE or EXTRA leaves the order (R60, R65). -/
def Claims.CrossingMovesTheSlotToTheFront : Prop :=
  ∀ (i : Slot) (reader : Reader) (timed : Bool) (x : Nat) (r : Record) (s : State),
    s.rt.slots[i] = some r →
    let cls := classify s.ci r x
    (crossSlot i reader timed x s).rt.order =
      if cls = .duplicate ∨ cls = .extra then s.rt.order else i :: s.rt.order.erase i

/-- Step 7 in its place: the crossing leaves what the routing of its class leaves, taken on the state that
steps 4 to 6 leave, with the record as they leave it; step 8 changes the recency order alone (R45). That the
selection, the preemption test and the head test the routing brings are part of the report's execution is the
model's reading (log 18). -/
def Claims.CrossingIsRoutedInItsPlace : Prop :=
  ∀ (i : Slot) (reader : Reader) (timed : Bool) (x : Nat) (r q : Record) (s : State),
    s.rt.slots[i] = some r → (crossSlot i reader timed x s).rt.slots[i] = some q →
    let t := crossSlot i reader timed x s
    let logged := (s.withRt { s.rt with slots := s.rt.slots.set i (some q) }).withSl t.sl
    let routed := routeCrossing i (classify s.ci r x) x q logged
    t.fc = routed.fc ∧ t.ls = routed.ls ∧ t.bi = routed.bi ∧ t.rt.holds = routed.rt.holds ∧
      t = routed.withRt { routed.rt with order := t.rt.order }

/-- `Claims.CrossingUpdatesTheRecord`, `Claims.CrossingIsLogged`, `Claims.CrossingIsRoutedInItsPlace`,
`Claims.CrossingMovesTheSlotToTheFront`, each with the rules it names. -/
def Obligations.CrossingIsRecordedAndLogged : Prop :=
  Claims.CrossingUpdatesTheRecord ∧
    Claims.CrossingIsLogged ∧
    Claims.CrossingIsRoutedInItsPlace ∧
    Claims.CrossingMovesTheSlotToTheFront

/-! ### The runner table (chapter 4) -/

/-- Allocation: the victim is the first slot from the back of the recency order that is neither pinned nor
held; it takes the new record and moves to the front; the fill request of the record it held leaves the
list; no other slot and no hold count changes; without such a slot there is none (R68 to R70). -/
def Claims.AllocationTakesTheLeastRecentFreeable : Prop :=
  ∀ (t : RunnerTable) (r : Record),
    (∀ (front back : List Slot) (i : Slot), t.order = front ++ i :: back → t.order.Nodup →
      t.isPinned i = false → t.holds[i] = 0 → (∀ j ∈ back, t.isPinned j = true ∨ 0 < t.holds[j]) →
      ∃ u, t.allocate r = some (i, u) ∧ u.slots[i] = some r ∧
        (∀ j : Slot, j ≠ i → u.slots[j] = t.slots[j]) ∧ u.order = i :: (front ++ back) ∧
        u.holds = t.holds ∧ u.staleFills = t.staleFills ∧
        u.fills = t.fills.filter fun e => (t.slots[i].map fun q => q.bib) ≠ some e.bib) ∧
    ((∀ j ∈ t.order, t.isPinned j = true ∨ 0 < t.holds[j]) → t.allocate r = none)

/-- A crossing of an absent bib takes an allocated slot with a record of that bib and no other field, its
wave in use resolved: NEW with a WAITING fill request at the tail while the list has room after the
eviction, else UNFILLED (R49, R70, R72). -/
def Claims.CrossingOfAnAbsentBibAllocates : Prop :=
  ∀ (bib : Nat) (s u : State) (i : Slot), allocateForCrossing bib s = some (i, u) →
    ∃ t, s.rt.allocate (derive s.cmu.waves s.ci (Record.fresh bib .new)) = some (i, t) ∧
      OnlyTable s u ∧ u.rt.order = t.order ∧ u.rt.holds = t.holds ∧
      u.rt.staleFills = t.staleFills ∧ (∀ j : Slot, j ≠ i → u.rt.slots[j] = t.slots[j]) ∧
      ∃ q, u.rt.slots[i] = some q ∧
        q = { Record.fresh bib (if t.fills.length < 32 then .new else .unfilled) with
              waveInUse := resolveWave s.cmu.waves (Record.fresh bib .new) } ∧
        u.rt.fills =
          if t.fills.length < 32 then
            t.fills ++ [{ bib, slot := i, sent := false, offers := 0, sentAt := none }]
          else t.fills

/-- A bib is looked up to a slot that holds it, and to none exactly when no slot does; what a slot holds is its
record; a slot is pinned when its record has a pin level, and the pinned ones are counted; a hold taken or
released moves the slot's hold count by one and nothing else (R62, R66, R67). -/
def Claims.SlotsOfTheTable : Prop :=
  ∀ t : RunnerTable,
    (∀ (bib : Nat),
      (∀ i, t.lookup bib = some i → ∃ r, t.slots[i] = some r ∧ r.bib = bib) ∧
        (t.lookup bib = none ↔ ∀ (i : Slot) (r : Record), t.slots[i] = some r → r.bib ≠ bib)) ∧
    (∀ (i : Slot),
      (∀ r, t.slots[i] = some r → ∀ bib, t.recordOf i bib = r) ∧
      (t.isPinned i = true ↔ ∃ r k, t.slots[i] = some r ∧ r.pin = some k) ∧
      t.hold i = { t with holds := t.holds.set i (t.holds[i] + 1) } ∧
      t.release i = { t with holds := t.holds.set i (t.holds[i] - 1) }) ∧
    t.pinnedCount = ((List.finRange 256).filter fun i => t.isPinned i).length

/-- A new record holds its bib and its fill state, and every other field of it is absent or clear (R49, R63,
R70). -/
def Claims.NewRecords : Prop :=
  ∀ (bib : Nat) (fill : FillState),
    let absent : Derived :=
      { raceTime := none, pace := none, projection := none, noWave := false, noGun := false,
        beforeGun := false, paceCapped := false, projCapped := false }
    Derived.absent = absent ∧
      Record.fresh bib fill =
        { bib, name := none, fillWave := none, waveInUse := none, upstream := none, pass1 := none,
          pass2 := none, derived1 := absent, derived2 := absent, pin := none, fill, stale := false }

/-- `Claims.AllocationTakesTheLeastRecentFreeable`, `Claims.CrossingOfAnAbsentBibAllocates`,
`Claims.SlotsOfTheTable`, `Claims.NewRecords`, each with the rules it names. -/
def Obligations.AllocationResult : Prop :=
  Claims.AllocationTakesTheLeastRecentFreeable ∧
    Claims.CrossingOfAnAbsentBibAllocates ∧
    Claims.SlotsOfTheTable ∧
    Claims.NewRecords

/-- Roster Fill: the checks of R76 in their order; for a bib in the table the carried fields replace the
record's, a name's characters outside 0x20 to 0x7E becoming '?' (R63), the state is FILLED, its request leaves
the list, the record is derived and re-rendered; for an absent bib a preload allocates a FILLED record, and a
fill without preload is counted as stale and changes nothing else (R76 to R78). -/
def Obligations.RosterFillResult : Prop :=
  ∀ (c : Channel) (p : Packet) (s : State), Delivered .rosterFill c p s →
    let l := payloadOf p
    let bib := halfAt l 0
    let n := byteAt l 3
    let wave := byteAt l 4
    let distance := halfAt l 5
    let time := longAt l 7
    let bad : Prop :=
      20 < n ∨ (7 < wave ∧ wave ≠ 0xFF) ∨ (distance = 0 ↔ time ≠ 0xFFFFFFFF) ∨ 60000 < distance ∨
        (time ≠ 0xFFFFFFFF ∧ 16777215 < time)
    let filled (r : Record) : Record :=
      derive s.cmu.waves s.ci
        { r with
          name :=
            if n = 0 then r.name
            else some (((l.drop 11).take n).map fun x => if 0x20#8 ≤ x ∧ x ≤ 0x7E#8 then x else 0x3F#8)
          fillWave := if h : wave < 8 then some ⟨wave, h⟩ else r.fillWave
          upstream := if distance = 0 then r.upstream else some (distance, time)
          fill := .filled }
    (bib = 0 ∨ 65534 < bib → exec (.rosterFill p) s = .next (s.refuse c 0x09#8 .badBib)) ∧
    (1 ≤ bib → bib ≤ 65534 →
      (bad → exec (.rosterFill p) s = .next (s.refuse c 0x09#8 .badValue)) ∧
      (¬ bad →
        (∀ i r, s.rt.lookup bib = some i → s.rt.slots[i] = some r →
          exec (.rosterFill p) s = .next
            (rerender i (s.withRt
              { s.rt with
                slots := s.rt.slots.set i (some (filled r))
                fills := s.rt.fills.filter fun e => e.bib ≠ bib }))) ∧
        (s.rt.lookup bib = none → byteAt l 2 % 2 = 0 →
          exec (.rosterFill p) s = .next
            (s.withRt { s.rt with staleFills := min 65535 (s.rt.staleFills + 1) })) ∧
        (∀ i t, s.rt.lookup bib = none → byteAt l 2 % 2 = 1 →
          s.rt.allocate (filled (Record.fresh bib .filled)) = some (i, t) →
          exec (.rosterFill p) s = .next (s.withRt t))))

/-- Fetch Fills: of the WAITING entries the oldest, up to the maximum clamped to 1 to 8, become SENT with
one more offer and the local time, each entry keeping its place; the reply carries their bibs and offers
in list order and the number left WAITING (R73). -/
def Claims.FetchFillsResult : Prop :=
  ∀ (c : Channel) (p : Packet) (s : State), Delivered .fetchFills c p s →
    let n := max 1 (min 8 (paramOf p))
    let taken := (s.rt.fills.filter fun e => !e.sent).take n
    ∃ fills, exec (.fetchFills p) s = .next
        ((s.withRt { s.rt with fills }).withLc
          { s.lc with
            replies := s.lc.replies.set c
              (s.lc.replies[c] ++
                [.fillList ((s.rt.fills.filter fun e => !e.sent).length - taken.length)
                  (taken.map fun e => (e.bib, e.offers + 1))]) }) ∧
      fills.length = s.rt.fills.length ∧
      ∀ (k : Nat) (e : FillRequest), s.rt.fills[k]? = some e →
        fills[k]? = some
          (if e.sent = false ∧ ((s.rt.fills.take k).filter fun d => !d.sent).length < n then
            { e with sent := true, offers := e.offers + 1, sentAt := some s.localTime }
           else e)

/-- FILL_TIMEOUT: a SENT entry of 30,000 ms ago becomes WAITING in its place while it has been offered less
than three times; at three offers it leaves the list and its slot becomes UNFILLED; other entries and all
else stay (R74). -/
def Claims.FillTimeoutResult : Prop :=
  ∀ s : State, s.resetHeld = false →
    let dueAt (e : FillRequest) : Prop := e.sent = true ∧ ∃ t ∈ e.sentAt, t + 30000 ≤ s.localTime
    ∃ t, exec .fillTimeout s = .next t ∧ OnlyTable s t ∧
      t.rt.order = s.rt.order ∧ t.rt.holds = s.rt.holds ∧ t.rt.staleFills = s.rt.staleFills ∧
      (∃ given : FillRequest → Bool, (∀ e, given e = true ↔ dueAt e ∧ 3 ≤ e.offers) ∧
        (∃ back : FillRequest → FillRequest,
          (∀ e, (dueAt e → back e = { e with sent := false }) ∧ (¬ dueAt e → back e = e)) ∧
          t.rt.fills = (s.rt.fills.filter fun e => !given e).map back) ∧
        ∀ i : Slot, t.rt.slots[i] =
          if s.rt.fills.any fun e => given e && e.slot == i then
            s.rt.slots[i].map fun r => { r with fill := .unfilled }
          else s.rt.slots[i])

/-- `Claims.FetchFillsResult`, `Claims.FillTimeoutResult`, each with the rules it names. -/
def Obligations.FillRequestsAreSentAndTimeOut : Prop :=
  Claims.FetchFillsResult ∧
    Claims.FillTimeoutResult

/-- Pin: BAD_BIB, then BAD_VALUE for a level outside 1 to 7; a pinned bib takes the level; a bib not
pinned, or absent and then allocated UNFILLED without a request, is pinned unless 32 slots are, when the
request is refused PIN_LIMIT and nothing is allocated (R80). -/
def Obligations.PinResult : Prop :=
  ∀ (c : Channel) (p : Packet) (s : State), Delivered .pin c p s →
    let bib := halfAt (payloadOf p) 0
    let level := byteAt (payloadOf p) 2
    let refused (reason : Reason) := Host.Outcome.next (s.refuse c 0x0B#8 reason)
    (bib = 0 ∨ 65534 < bib → exec (.pin p) s = refused .badBib) ∧
    (1 ≤ bib → bib ≤ 65534 →
      (level = 0 ∨ 7 < level → exec (.pin p) s = refused .badValue) ∧
      ∀ k : Level, 1 ≤ level → k.val = level →
        (∀ i r, s.rt.lookup bib = some i → s.rt.slots[i] = some r →
          (r.pin.isSome ∨ s.rt.pinnedCount < 32 →
            exec (.pin p) s = .next
              (s.withRt
                { s.rt with slots := s.rt.slots.set i (some { r with pin := some k }) })) ∧
          (r.pin = none → 32 ≤ s.rt.pinnedCount → exec (.pin p) s = refused .pinLimit)) ∧
        (s.rt.lookup bib = none →
          (32 ≤ s.rt.pinnedCount → exec (.pin p) s = refused .pinLimit) ∧
          (∀ i t, s.rt.pinnedCount < 32 →
            s.rt.allocate
              { Record.fresh bib .unfilled with
                waveInUse := resolveWave s.cmu.waves (Record.fresh bib .unfilled), pin := some k } =
              some (i, t) →
            exec (.pin p) s = .next (s.withRt t))))

/-- Unpin, Read Record: BAD_BIB, then NOT_PRESENT for an absent bib; Unpin clears the pin and nothing else;
Read Record adds the record as it stands, with its slot and whether the slot is held, to the queue and
changes nothing in the table (R81, R82). -/
def Claims.UnpinAndReadRecordResult : Prop :=
  ∀ (c : Channel) (p : Packet) (s : State),
    let bib := paramOf p
    (Delivered .unpin c p s →
      (bib = 0 ∨ 65534 < bib → exec (.unpin p) s = .next (s.refuse c 0x0C#8 .badBib)) ∧
      (1 ≤ bib → bib ≤ 65534 →
        (s.rt.lookup bib = none → exec (.unpin p) s = .next (s.refuse c 0x0C#8 .notPresent)) ∧
        ∀ i r, s.rt.lookup bib = some i → s.rt.slots[i] = some r →
          exec (.unpin p) s = .next
            (s.withRt { s.rt with slots := s.rt.slots.set i (some { r with pin := none }) }))) ∧
    (Delivered .readRecord c p s →
      (bib = 0 ∨ 65534 < bib → exec (.readRecord p) s = .next (s.refuse c 0x0D#8 .badBib)) ∧
      (1 ≤ bib → bib ≤ 65534 →
        (s.rt.lookup bib = none → exec (.readRecord p) s = .next (s.refuse c 0x0D#8 .notPresent)) ∧
        ∀ i r, s.rt.lookup bib = some i → s.rt.slots[i] = some r →
          exec (.readRecord p) s = .next
            (s.withLc
              { s.lc with
                replies := s.lc.replies.set c
                  (s.lc.replies[c] ++ [.record i r (decide (0 < s.rt.holds[i]))]) })))

/-- Correct Pass: BAD_BIB, BAD_VALUE for a pass number or a tick, NOT_PRESENT, in that order; else the pass
is set with source CORRECTED and read count 1, or cleared, the record is derived and re-rendered, and log,
recency order, fill state, pin and leader flags stay (R83). -/
def Claims.CorrectPassResult : Prop :=
  ∀ (c : Channel) (p : Packet) (s : State), Delivered .correctPass c p s →
    let l := payloadOf p
    let bib := halfAt l 0
    let number := byteAt l 2
    let tick := longAt l 3
    let refused (reason : Reason) := Host.Outcome.next (s.refuse c 0x0E#8 reason)
    let bad : Prop := (number ≠ 1 ∧ number ≠ 2) ∨ (16777215 < tick ∧ tick ≠ 0xFFFFFFFF)
    let pass : Option Pass :=
      if tick = 0xFFFFFFFF then none else some { tick, source := .corrected, count := 1 }
    (bib = 0 ∨ 65534 < bib → exec (.correctPass p) s = refused .badBib) ∧
    (1 ≤ bib → bib ≤ 65534 →
      (bad → exec (.correctPass p) s = refused .badValue) ∧
      (¬ bad →
        (s.rt.lookup bib = none → exec (.correctPass p) s = refused .notPresent) ∧
        ∀ i r, s.rt.lookup bib = some i → s.rt.slots[i] = some r →
          exec (.correctPass p) s = .next
            (rerender i (s.withRt
              { s.rt with
                slots := s.rt.slots.set i
                  (some (derive s.cmu.waves s.ci
                    (if number = 1 then { r with pass1 := pass } else { r with pass2 := pass }))) }))))

/-- Table Flush frees every slot that is neither pinned nor held, with its fill request; the freed slots
move to the back of the recency order, both groups keeping their relative order; kept slots, holds and the
stale-fill count stay, and so does every other block (R85). -/
def Claims.TableFlushResult : Prop :=
  ∀ (c : Channel) (p : Packet) (s : State), Delivered .tableFlush c p s →
    let kept (i : Slot) : Bool := s.rt.isPinned i || decide (0 < s.rt.holds[i])
    ∃ t, exec (.tableFlush p) s = .next t ∧ OnlyTable s t ∧
      (∀ i : Slot, t.rt.slots[i] = if kept i then s.rt.slots[i] else none) ∧
      t.rt.order = s.rt.order.filter kept ++ s.rt.order.filter (fun i => !kept i) ∧
      t.rt.fills = s.rt.fills.filter (fun e => kept e.slot) ∧
      t.rt.holds = s.rt.holds ∧ t.rt.staleFills = s.rt.staleFills

/-- `Claims.UnpinAndReadRecordResult`, `Claims.TableFlushResult`,
each with the rules it names. -/
def Obligations.UnpinReadAndFlush : Prop :=
  Claims.UnpinAndReadRecordResult ∧
    Claims.TableFlushResult

/-- PASS_VISIT: an OCCUPIED and STALE slot is derived with the wave table and point settings as they stand
and re-rendered, any other is left; then the position moves on, and after slot 255 the pass ends (R100,
R101). -/
def Claims.PassVisitResult : Prop :=
  ∀ (i : Slot) (s : State), s.resetHeld = false → s.sa.position = some i →
    let next : PassState := { position := if h : i.val + 1 < 256 then some ⟨i.val + 1, h⟩ else none }
    (∀ r, s.rt.slots[i] = some r → r.stale = true →
      exec .passVisit s = .next
        ((rerender i (s.withRt
          { s.rt with slots := s.rt.slots.set i (some (derive s.cmu.waves s.ci r)) })).withSa next)) ∧
    ((∀ r, s.rt.slots[i] = some r → r.stale = false) → exec .passVisit s = .next (s.withSa next))

/-- `Claims.CorrectPassResult`, `Claims.PassVisitResult`, each with the rules it names. -/
def Obligations.CorrectionsAndVisits : Prop :=
  Claims.CorrectPassResult ∧
    Claims.PassVisitResult

/-- A re-render reaches the board image and the cells of a list line alone, and keeps the line's place,
pass and shown time (R141, R136). -/
def Claims.RerenderReachesOnlyTheBoard : Prop :=
  ∀ (i : Slot) (s : State),
    let t := rerender i s
    t = (s.withLs { s.ls with buffers := t.ls.buffers }).withBi { s.bi with image := t.bi.image } ∧
    t.ls.buffers.map (fun b => b.map fun line => (line.slot, line.bib, line.pass, line.shownAt)) =
      s.ls.buffers.map fun b => b.map fun line => (line.slot, line.bib, line.pass, line.shownAt)

/-- The recency order lists every slot once at every step (R65). -/
def Claims.EveryStepKeepsRecencySound : Prop :=
  ∀ s t : State, RecencySound s → step s = .next t → RecencySound t

/-- Bibs stay unique, at most 32 slots are pinned, and the fill list stays sound at every step (R62, R67,
R71). -/
def Claims.EveryStepKeepsTableSound : Prop :=
  ∀ s t : State, TableSound s → step s = .next t → TableSound t

/-- No slot is STALE outside a pass in flight that has yet to visit it, at every step (R98). -/
def Claims.EveryStepKeepsStaleSound : Prop :=
  ∀ s t : State, StaleSound s → step s = .next t → StaleSound t

/-- `Claims.EveryStepKeepsRecencySound`, `Claims.EveryStepKeepsTableSound`,
`Claims.EveryStepKeepsStaleSound`, each with the rules it names. -/
def Obligations.EveryStepKeepsTheTable : Prop :=
  Claims.EveryStepKeepsRecencySound ∧ Claims.EveryStepKeepsTableSound ∧
    Claims.EveryStepKeepsStaleSound

/-! ### Split arithmetic (chapter 5) -/

/-- Race time, flags, pace and projection of a pass, for the candidates offered (R89 to R93): with a race
time T at distance D, the candidate taken is one of the kept with the largest distance, S = T - Tu,
M = D - Du, and the stored values are the exact quotients with their caps. -/
def Obligations.DerivationFollowsTheFormulas : Prop :=
  ∀ (waves : Vector WaveEntry 8) (course d x : Nat) (candidates : List (Nat × Nat)),
    (derivePass waves none course d x candidates = { Derived.absent with noWave := true }) ∧
    ∀ w : Wave,
      (waves[w].gun = none →
        derivePass waves (some w) course d x candidates = { Derived.absent with noGun := true }) ∧
      ∀ gun, waves[w].gun = some gun →
        (x < gun →
          derivePass waves (some w) course d x candidates =
            { Derived.absent with beforeGun := true }) ∧
        (gun ≤ x →
          let T := x - gun
          let timed := { Derived.absent with raceTime := some T }
          (d = 0 ∨ (∀ u ∈ candidates, ¬ (u.1 < d ∧ u.2 < T)) →
            derivePass waves (some w) course d x candidates = timed) ∧
          (0 < d → ∀ (before after : List (Nat × Nat)) (du tu : Nat),
            candidates = before ++ (du, tu) :: after → du < d → tu < T →
            (∀ u ∈ before, u.1 < d → u.2 < T → u.1 < du) →
            (∀ u ∈ after, u.1 < d → u.2 < T → u.1 ≤ du) →
            let S := T - tu
            let M := d - du
            let P := (S * 1000 + M / 2) / M
            let F := T + (S * (course - d) + M / 2) / M
            derivePass waves (some w) course d x candidates =
              { timed with
                pace := some (min P 359900)
                paceCapped := decide (359900 < P)
                projection := if d = course then none else some (min F 16777215)
                projCapped := decide (d ≠ course ∧ 16777215 < F) }))

/-- The derivation of a record resolves its wave, derives pass 1 at D1 from the upstream split and the
start, then pass 2 at D2 from pass 1 if D1 is set and pass 1 has a race time, the upstream split and the
start, pass 1 standing first among equal distances; absent passes have absent values; STALE is cleared;
nothing else of the record changes (R88, R90, R91). -/
def Claims.DerivationOfARecord : Prop :=
  ∀ (waves : Vector WaveEntry 8) (point : PointSettings) (r : Record),
    let q := derive waves point r
    let w := resolveWave waves r
    let up := r.upstream.toList
    q = { r with waveInUse := w, derived1 := q.derived1, derived2 := q.derived2, stale := false } ∧
    (r.pass1 = none → q.derived1 = Derived.absent) ∧ (r.pass2 = none → q.derived2 = Derived.absent) ∧
    (∀ a, r.pass1 = some a →
      q.derived1 = derivePass waves w point.courseLength point.d1 a.tick (up ++ [(0, 0)])) ∧
    ∀ b, r.pass2 = some b →
      (∀ t1, q.derived1.raceTime = some t1 → point.d1 ≠ 0 →
        q.derived2 =
          derivePass waves w point.courseLength point.d2 b.tick ((point.d1, t1) :: up ++ [(0, 0)])) ∧
      (q.derived1.raceTime = none ∨ point.d1 = 0 →
        q.derived2 = derivePass waves w point.courseLength point.d2 b.tick (up ++ [(0, 0)]))

/-- A runner's wave: the fill wave if the record holds one; else the lowest wave whose range is present and
contains the bib; else none (R37). -/
def Claims.WaveResolution : Prop :=
  ∀ (waves : Vector WaveEntry 8) (r : Record),
    let holds (w : Wave) : Prop := ∃ f l, waves[w].range = some (f, l) ∧ f ≤ r.bib ∧ r.bib ≤ l
    (∀ w, r.fillWave = some w → resolveWave waves r = some w) ∧
    (r.fillWave = none →
      (∀ w : Wave, holds w → (∀ v : Wave, v < w → ¬ holds v) → resolveWave waves r = some w) ∧
      ((∀ w : Wave, ¬ holds w) → resolveWave waves r = none))

/-- `Claims.DerivationOfARecord`, `Claims.WaveResolution`, each with the rules it names. -/
def Obligations.DerivationOfRecords : Prop :=
  Claims.DerivationOfARecord ∧
    Claims.WaveResolution

/-- A race time or projection is shown rounded up to the second, a pace rounded half up, the band clock
truncated, each with its limit, and dashes where absent, in the forms of R95 to R97. -/
def Obligations.DisplayedTimes : Prop :=
  (∀ n : Nat, digit n = BitVec.ofNat 8 (0x30 + n % 10)) ∧
  (timeText none = [0x2D#8, 0x3A#8, 0x2D#8, 0x2D#8, 0x3A#8, 0x2D#8, 0x2D#8] ∧
    paceText none = [0x2D#8, 0x2D#8, 0x3A#8, 0x2D#8, 0x2D#8] ∧
    ∀ clock : Nat, bandClockText clock none = timeText none) ∧
  (∀ t : Nat,
    let s := min ((t + 99) / 100) 35999
    timeText (some t) =
      [digit (s / 3600), 0x3A#8, digit (s / 60 % 60 / 10), digit (s / 60 % 60 % 10), 0x3A#8,
        digit (s % 60 / 10), digit (s % 60 % 10)]) ∧
  (∀ p : Nat,
    let s := min ((p + 50) / 100) 3599
    paceText (some p) =
      [if s < 600 then 0x20#8 else digit (s / 60 / 10), digit (s / 60 % 10), 0x3A#8,
        digit (s % 60 / 10), digit (s % 60 % 10)]) ∧
  ∀ clock gun : Nat,
    (clock < gun → bandClockText clock (some gun) = timeText none) ∧
    (gun ≤ clock →
      let s := min ((clock - gun) / 100) 35999
      bandClockText clock (some gun) =
        [digit (s / 3600), 0x3A#8, digit (s / 60 % 60 / 10), digit (s / 60 % 60 % 10), 0x3A#8,
          digit (s % 60 / 10), digit (s % 60 % 10)])

/-! ### The split log (chapter 6) -/

/-- Collect: a held number gives the entries from it onward, up to the maximum clamped to 1 to 32, any other
none; the reply carries the bounds; the log is left as it is (R107, R111, R112). -/
def Claims.CollectResult : Prop :=
  ∀ (c : Channel) (p : Packet) (s : State), Delivered .collect c p s → LogSound s →
    let n := halfAt (payloadOf p) 0
    let m := max 1 (min 32 (byteAt (payloadOf p) 2))
    let oldest := (s.sl.next.toNat + 65536 - s.sl.entries.length) % 65536
    let place := (n + 65536 - oldest) % 65536
    exec (.collect p) s = .next
      (s.withLc
        { s.lc with
          replies := s.lc.replies.set c
            (s.lc.replies[c] ++
              [.logEntries (BitVec.ofNat 16 oldest) s.sl.entries.length s.sl.next
                (if place < s.sl.entries.length then (s.sl.entries.drop place).take m else [])]) })

/-- Release: a held number removes every entry from the oldest through it, the rest keeping order and
numbers; any other is refused BAD_VALUE. Next number, count of refused appends and gap flag stay (R107,
R113). -/
def Claims.ReleaseResult : Prop :=
  ∀ (c : Channel) (p : Packet) (s : State), Delivered .release c p s →
    ((∀ e ∈ s.sl.entries, e.number ≠ bodyParam p.body) → LogSound s →
      exec (.release p) s = .next (s.refuse c 0x11#8 .badValue)) ∧
    ∀ (before rest : List LogEntry) (e : LogEntry), LogSound s →
      s.sl.entries = before ++ e :: rest → e.number = bodyParam p.body →
      exec (.release p) s = .next (s.withSl { s.sl with entries := rest })

/-- `Claims.CollectResult`, `Claims.ReleaseResult`, each with the rules it names. -/
def Obligations.CollectAndRelease : Prop :=
  Claims.CollectResult ∧
    Claims.ReleaseResult

/-- The log's numbers run consecutively up to the next number, at every step (R106). -/
def Obligations.EveryStepKeepsLogSound : Prop :=
  ∀ s t : State, LogSound s → step s = .next t → LogSound t

/-! ### The feature band (chapter 7) -/

/-- A feature request for the slot shown re-renders the band, one for a slot queued or suspended is
ignored; else the entry joins the tail of its level's queue with a hold, after the oldest of a full queue
is dropped, released and counted, and a selection or a preemption test follows (R120). -/
def Obligations.FeatureRequestResult : Prop :=
  ∀ (k : Level) (e : FeatureEntry) (s : State),
    ((∃ g ∈ s.fc.shown, g.slotOf = some e.slot) → requestFeature k e s = renderBand s) ∧
    ((∀ g ∈ s.fc.shown, g.slotOf ≠ some e.slot) →
      (e.slot ∈ featureSlots { s.fc with shown := none } → requestFeature k e s = s) ∧
      (e.slot ∉ featureSlots s.fc →
        (s.fc.queues[k].length < 4 →
          requestFeature k e s =
            selectOrTest ((s.withRt (s.rt.hold e.slot)).withFc
              { s.fc with queues := s.fc.queues.set k (s.fc.queues[k] ++ [e]) })) ∧
        (∀ (old : FeatureEntry) (rest : List FeatureEntry), s.fc.queues[k] = old :: rest →
          4 ≤ s.fc.queues[k].length →
          requestFeature k e s =
            selectOrTest ((s.withRt ((s.rt.release old.slot).hold e.slot)).withFc
              { s.fc with
                queues := s.fc.queues.set k (rest ++ [e])
                drops := min 65535 (s.fc.drops + 1) }))))

/-- The best candidate: of the unmasked levels that have one, the first in the mode's priority; of that
level, the message in state WAITING with that level stored and the first posting place, else the oldest queue
entry (R125, R126). -/
def Claims.BestCandidate : Prop :=
  ∀ f : FeatureState,
    let priority : List Level :=
      match f.mode with
      | .nested => [0, 1, 2, 3, 4, 5, 6, 7]
      | .rotating => 0 :: f.rotation
    let waiting (k : Level) (m : Fin 8) : Prop :=
      ∃ msg, f.messages[m] = some msg ∧ msg.state = .waiting ∧ msg.level = k
    let offers (k : Level) (c : Candidate) : Prop :=
      f.mask.getLsbD k.val = false ∧
        ((∃ before m after, c = .message m ∧ f.posting = before ++ m :: after ∧
            waiting k m ∧ ∀ n ∈ before, ¬ waiting k n) ∨
          ((∀ n ∈ f.posting, ¬ waiting k n) ∧
            ∃ e rest, c = .entry e ∧ f.queues[k] = e :: rest))
    (∀ (before after : List Level) (k : Level) (c : Candidate), priority = before ++ k :: after →
      offers k c → (∀ j ∈ before, ∀ d, ¬ offers j d) → f.best = some (k, c)) ∧
    ((∀ k ∈ priority, ∀ c, ¬ offers k c) → f.best = none)

/-- The selection with nothing shown: in NESTED the top of the stack resumes unless a candidate of a lower
level is eligible; in ROTATING it resumes whatever is eligible and an eligible level 0 candidate preempts
it at once; else the best candidate is shown, else nothing (R127, R128). -/
def Claims.SelectionCases : Prop :=
  ∀ (f : FeatureState), f.shown = none →
    let show_ (x : Option (Level × Candidate)) : FeatureState :=
      match x with
      | some (k, c) => f.showCandidate k c
      | none => f
    (f.stack = [] → f.select = show_ f.best) ∧
    ∀ (g : Feature) (rest : List Feature), f.stack = g :: rest →
      let resumed := { f.markRef g.ref .shown with shown := some g, stack := rest }
      (f.mode = .nested →
        (∀ k c, f.best = some (k, c) → k < g.level → f.select = f.showCandidate k c) ∧
        ((∀ k c, f.best = some (k, c) → g.level ≤ k) → f.select = resumed)) ∧
      (f.mode = .rotating →
        ((∀ k c, resumed.best = some (k, c) → k ≠ 0 ∨ g.level = 0) → f.select = resumed) ∧
        (∀ c, resumed.best = some (0, c) → g.level ≠ 0 →
          f.select =
            ({ resumed.markRef g.ref .suspended with shown := none, stack := g :: rest }).showCandidate
              0 c))

/-- Showing a candidate: a WAITING message becomes SHOWN, held for a duration of 0 and else for 1,000 ms a
second; the oldest entry leaves its queue and is shown with the runner dwell; nothing else changes (R127).
A feature pushed or resumed gives its message, if it is one, the state named (R127, R128). -/
def Claims.ShowingACandidate : Prop :=
  ∀ (f : FeatureState) (k : Level),
    (∀ (m : Fin 8) (msg : Message), f.messages[m] = some msg →
      f.showCandidate k (.message m) =
          { f with
            messages := f.messages.set m (some { msg with state := .shown })
            shown := some
              { level := k, ref := .message m
                dwell := if msg.duration = 0 then none else some (1000 * msg.duration) } } ∧
        ∀ state : MessageState,
          f.markRef (.message m) state =
            { f with messages := f.messages.set m (some { msg with state }) }) ∧
    (∀ (e : FeatureEntry) (rest : List FeatureEntry), f.queues[k] = e :: rest →
      f.showCandidate k (.entry e) =
        { f with
          queues := f.queues.set k rest
          shown := some { level := k, ref := .runner e, dwell := some f.runnerDwell } }) ∧
    ∀ (e : FeatureEntry) (state : MessageState), f.markRef (.runner e) state = f

/-- A selection is made while B is at least 1 and nothing is shown, and the band is rendered; while B is 0
neither a selection nor a preemption test is made; while a feature is shown no selection is, and the
preemption test is made in its place where either may be due (R119, R120, R123, R127, R133). -/
def Claims.WhenSelectionsAreMade : Prop :=
  ∀ s : State,
    (s.bi.bandHeight = 0 → selectFeature s = s ∧ testPreemption s = s ∧ selectOrTest s = s) ∧
    (1 ≤ s.bi.bandHeight → s.fc.shown = none →
      selectFeature s = renderBand (s.withFc s.fc.select) ∧ selectOrTest s = selectFeature s ∧
        testPreemption s = s) ∧
    (s.fc.shown ≠ none → selectFeature s = s ∧ selectOrTest s = testPreemption s)

/-- The preemption test while a feature is shown: the best candidate preempts, in NESTED if its level number
is lower than the shown one, in ROTATING if it is 0 and the shown one is not; the shown feature, with its
remaining dwell, goes onto the top of the stack, its message becoming SUSPENDED, and the candidate is shown
and the band rendered; without one nothing changes (R128). -/
def Claims.PreemptionTestResult : Prop :=
  ∀ (g : Feature) (s : State), 1 ≤ s.bi.bandHeight → s.fc.shown = some g →
    let pushed : FeatureState :=
      { s.fc.markRef g.ref .suspended with shown := none, stack := g :: s.fc.stack }
    let preempts (k : Level) : Prop :=
      (s.fc.mode = .nested ∧ k < g.level) ∨ (s.fc.mode = .rotating ∧ k = 0 ∧ g.level ≠ 0)
    (∀ k c, s.fc.best = some (k, c) → preempts k →
      testPreemption s = renderBand (s.withFc (pushed.showCandidate k c))) ∧
    ((∀ k c, s.fc.best = some (k, c) → ¬ preempts k) → testPreemption s = s)

/-- `Claims.BestCandidate`, `Claims.ShowingACandidate`, `Claims.SelectionCases`,
`Claims.WhenSelectionsAreMade`, `Claims.PreemptionTestResult`, each with the rules it names. -/
def Obligations.SelectionResult : Prop :=
  Claims.BestCandidate ∧
    Claims.ShowingACandidate ∧
    Claims.SelectionCases ∧
    Claims.WhenSelectionsAreMade ∧
    Claims.PreemptionTestResult

/-- Post Message: BAD_VALUE for a message, level or line count out of range; the lines are cut from the
payload, 48 characters each, those outside 0x20 to 0x7F becoming '?'; an EMPTY message becomes WAITING with a
new, last posting place; a WAITING one is replaced in place; then a selection if nothing is shown, else the
preemption test, for a WAITING message only if its level changed; a SHOWN one is replaced and re-rendered, a
SUSPENDED one replaced (R123). -/
def Claims.PostMessageResult : Prop :=
  ∀ (c : Channel) (p : Packet) (s : State), Delivered .postMessage c p s →
    let l := payloadOf p
    let k := byteAt l 4
    let duration := min 600 (halfAt l 2)
    let lines := (List.range k).map fun i =>
      ((l.drop (5 + 48 * i)).take 48).map fun x => if 0x20#8 ≤ x ∧ x ≤ 0x7F#8 then x else 0x3F#8
    (7 < byteAt l 0 ∨ 7 < byteAt l 1 ∨ k = 0 ∨ 4 < k →
      exec (.postMessage p) s = .next (s.refuse c 0x12#8 .badValue)) ∧
    ∀ (m : Fin 8) (level : Level), m.val = byteAt l 0 → level.val = byteAt l 1 → 1 ≤ k → k ≤ 4 →
      (s.fc.messages[m] = none →
        exec (.postMessage p) s = .next
          (selectOrTest (s.withFc
            { s.fc with
              messages := s.fc.messages.set m (some { level, duration, lines, state := .waiting })
              posting := s.fc.posting.erase m ++ [m] }))) ∧
      ∀ old, s.fc.messages[m] = some old →
        let t := s.withFc
          { s.fc with messages := s.fc.messages.set m (some { old with level, duration, lines }) }
        exec (.postMessage p) s = .next
          (match old.state with
           | .waiting =>
             if s.fc.shown.isNone then selectFeature t
             else if old.level = level then t
             else testPreemption t
           | .shown => renderBand t
           | .suspended => t)

/-- Delete Message: BAD_VALUE above 7; a SHOWN message's feature ends with the message EMPTY whatever its
duration, a SUSPENDED one's entry leaves the stack the same way, a WAITING one becomes EMPTY, an EMPTY one
stays so (R124, R130). -/
def Claims.DeleteMessageResult : Prop :=
  ∀ (c : Channel) (p : Packet) (s : State), Delivered .deleteMessage c p s →
    (7 < paramOf p → exec (.deleteMessage p) s = .next (s.refuse c 0x13#8 .badValue)) ∧
    ∀ m : Fin 8, m.val = paramOf p →
      (s.fc.messages[m] = none → exec (.deleteMessage p) s = .next s) ∧
      ∀ old, s.fc.messages[m] = some old →
        exec (.deleteMessage p) s = .next
          (match old.state with
           | .shown => selectFeature (endShown true s)
           | .suspended => removeSuspended true (fun g => g.ref == .message m) s
           | .waiting => s.withFc { s.fc with messages := s.fc.messages.set m none })

/-- `Claims.PostMessageResult`, `Claims.DeleteMessageResult`, each with the rules it names. -/
def Obligations.MessageRequests : Prop :=
  Claims.PostMessageResult ∧
    Claims.DeleteMessageResult

/-- End Feature: non-specific ends the shown feature, or has no effect; a level ends the shown feature of
that level, else every suspended one of it, else is refused NOT_PRESENT; other codes are refused BAD_VALUE
(R131). -/
def Claims.EndFeatureResult : Prop :=
  ∀ (c : Channel) (p : Packet) (s : State), Delivered .endFeature c p s →
    let ended : State := selectFeature (endShown false s)
    (paramOf p = 0xFF →
      exec (.endFeature p) s = .next (if s.fc.shown = none then s else ended)) ∧
    (7 < paramOf p → paramOf p ≠ 0xFF →
      exec (.endFeature p) s = .next (s.refuse c 0x14#8 .badValue)) ∧
    ∀ k : Level, k.val = paramOf p →
      ((∃ g ∈ s.fc.shown, g.level = k) → exec (.endFeature p) s = .next ended) ∧
      ((∀ g ∈ s.fc.shown, g.level ≠ k) →
        ((∃ g ∈ s.fc.stack, g.level = k) →
          exec (.endFeature p) s = .next (removeSuspended false (fun g => g.level == k) s)) ∧
        ((∀ g ∈ s.fc.stack, g.level ≠ k) →
          exec (.endFeature p) s = .next (s.refuse c 0x14#8 .notPresent)))

/-- `t` is `s` after steps 2 and 3 of the ending of `g`: a runner or leader releases its hold; a message
becomes EMPTY if its duration is not 0 or it is deleted, else WAITING; in ROTATING mode its level, from 1,
moves to the end of the rotation order; nothing else changes (R126, R130). -/
def Claims.Ended (deleted : Bool) (g : Feature) (s t : State) : Prop :=
  OnlyBand s t ∧ t.bi = s.bi ∧
    t.fc =
      { s.fc with
        messages := t.fc.messages
        rotation :=
          if s.fc.mode = .rotating ∧ g.level ≠ 0 then s.fc.rotation.erase g.level ++ [g.level]
          else s.fc.rotation } ∧
    (∀ e, g.ref = .runner e →
      t.fc.messages = s.fc.messages ∧ t.rt = s.rt.release e.slot) ∧
    ∀ m, g.ref = .message m → t.rt = s.rt ∧
      (∀ n : Fin 8, n ≠ m → t.fc.messages[n] = s.fc.messages[n]) ∧
      (s.fc.messages[m] = none → t.fc.messages[m] = none) ∧
      ∀ msg, s.fc.messages[m] = some msg →
        t.fc.messages[m] =
          if deleted = true ∨ msg.duration ≠ 0 then none else some { msg with state := .waiting }

/-- The end of the shown feature: it becomes absent, and then a runner or leader releases its hold; a message
becomes EMPTY if its duration is not 0 or it is deleted, else WAITING; in ROTATING mode its level, from 1,
moves to the end of the rotation order; nothing else changes, the stack among it (R126, R130). -/
def Claims.EndingOfTheShownFeature : Prop :=
  ∀ (deleted : Bool) (s : State),
    (s.fc.shown = none → endShown deleted s = s) ∧
    ∀ g, s.fc.shown = some g →
      Claims.Ended deleted g (s.withFc { s.fc with shown := none }) (endShown deleted s)

/-- The removal of stack entries: of those picked the topmost leaves the stack, the entries above and below
keeping their order, and is ended like a shown feature; then the rest of those picked, until none is left;
the shown feature stays (R124, R130, R131). -/
def Claims.RemovalOfSuspendedFeatures : Prop :=
  ∀ (deleted : Bool) (gone : Feature → Bool) (s : State),
    ((∀ g ∈ s.fc.stack, gone g = false) → removeSuspended deleted gone s = s) ∧
    ∀ (above below : List Feature) (g : Feature), s.fc.stack = above ++ g :: below → gone g = true →
      (∀ x ∈ above, gone x = false) →
      ∃ t, Claims.Ended deleted g (s.withFc { s.fc with stack := above ++ below }) t ∧
        removeSuspended deleted gone s = removeSuspended deleted gone t

/-- The masking of levels: the shown feature becomes absent if its recorded level is newly masked, and every
stack entry of a newly masked level leaves, the others keeping their order; runners and leaders among them
release their holds, held messages become WAITING and others EMPTY, and in ROTATING mode their levels, from
1, move to the end of the rotation order; queues, settings and all else stay (R133; the order among the
levels moved, lowest first, is the model's choice, log 14). -/
def Claims.MaskingOfLevels : Prop :=
  ∀ (old new : BitVec 8) (s : State), s.fc.rotation.Nodup →
    let t := maskLevels old new s
    let newly (k : Level) : Bool := new.getLsbD k.val && !old.getLsbD k.val
    let ended : List Feature := s.fc.shownAndStack.filter fun g => newly g.level
    let moved : List Level :=
      (List.finRange 8).filter fun k => k != 0 && ended.any fun g => g.level == k
    OnlyBand s t ∧ t.bi = s.bi ∧
    t.fc =
      { s.fc with
        shown := s.fc.shown.filter fun g => !newly g.level
        stack := s.fc.stack.filter fun g => !newly g.level
        messages := t.fc.messages
        rotation :=
          if s.fc.mode = .rotating then (s.fc.rotation.filter fun k => !moved.contains k) ++ moved
          else s.fc.rotation } ∧
    (∀ i : Slot, t.rt.holds[i] = s.rt.holds[i] - (ended.filterMap Feature.slotOf).count i) ∧
    ∀ m : Fin 8, t.fc.messages[m] =
      if ∃ g ∈ ended, g.ref = .message m then
        s.fc.messages[m].bind fun msg =>
          if msg.duration = 0 then some { msg with state := .waiting } else none
      else s.fc.messages[m]

/-- Feature Setup: BAD_VALUE for an undefined mode or leader level, then BUSY_STATE for a change of mode
while a feature is shown or suspended; else the four settings are stored, the dwell clamped, what the newly
masked levels show and suspend is ended, and a selection or preemption test follows (R132, R133). -/
def Claims.FeatureSetupResult : Prop :=
  ∀ (c : Channel) (p : Packet) (s : State), Delivered .featureSetup c p s →
    let l := payloadOf p
    let leader := byteAt l 2
    let mode : FeatureMode := if byteAt l 0 = 0 then .nested else .rotating
    let mask := BitVec.ofNat 8 (byteAt l 1)
    (1 < byteAt l 0 ∨ (7 < leader ∧ leader ≠ 0xFF) →
      exec (.featureSetup p) s = .next (s.refuse c 0x15#8 .badValue)) ∧
    (byteAt l 0 ≤ 1 → leader ≤ 7 ∨ leader = 0xFF →
      (mode ≠ s.fc.mode → s.fc.shown ≠ none ∨ s.fc.stack ≠ [] →
        exec (.featureSetup p) s = .next (s.refuse c 0x15#8 .busyState)) ∧
      (mode = s.fc.mode ∨ (s.fc.shown = none ∧ s.fc.stack = []) →
        exec (.featureSetup p) s = .next
          (selectOrTest (maskLevels s.fc.mask mask (s.withFc
            { s.fc with
              mode, mask
              leaderLevel := if h : leader < 8 then some ⟨leader, h⟩ else none
              runnerDwell := max 1000 (min 30000 (halfAt l 3)) })))))

/-- DWELL_EXPIRY: the shown feature whose remaining dwell is 0 ends and a selection follows; a held feature
and one with dwell left stay (R129, R130). -/
def Claims.DwellExpiryResult : Prop :=
  ∀ s : State, s.resetHeld = false →
    (∀ g, s.fc.shown = some g → g.dwell = some 0 →
      exec .dwellExpiry s = .next (selectFeature (endShown false s))) ∧
    ((∀ g, s.fc.shown = some g → g.dwell ≠ some 0) → exec .dwellExpiry s = .next s)

/-- `Claims.FeatureSetupResult`, `Claims.EndFeatureResult`, `Claims.DwellExpiryResult`,
`Claims.EndingOfTheShownFeature`, `Claims.RemovalOfSuspendedFeatures`, `Claims.MaskingOfLevels`, each with
the rules it names. -/
def Obligations.FeatureEndings : Prop :=
  Claims.FeatureSetupResult ∧
    Claims.EndFeatureResult ∧
    Claims.DwellExpiryResult ∧
    Claims.EndingOfTheShownFeature ∧
    Claims.RemovalOfSuspendedFeatures ∧
    Claims.MaskingOfLevels

/-- What selections, preemption tests, endings and removals reach: the feature controller, the hold counts
and the board image; the band is written on board lines 0 to B - 1 alone (R127, R130, R135). -/
def Claims.BandEventsReachOnlyTheBand : Prop :=
  ∀ (s : State) (deleted : Bool) (gone : Feature → Bool),
    OnlyBand s (selectOrTest s) ∧ OnlyBand s (selectFeature s) ∧ OnlyBand s (testPreemption s) ∧
      OnlyBand s (endShown deleted s) ∧ OnlyBand s (removeSuspended deleted gone s) ∧
      OnlyImage s (renderBand s) ∧
      (renderBand s).bi.image = bandRows s ++ s.bi.image.drop s.bi.bandHeight

/-- The shown feature, the suspended stack and the message states agree at every step (R119, R122, R126,
R128). -/
def Obligations.EveryStepKeepsBandSound : Prop :=
  ∀ s t : State, BandSound s → step s = .next t → BandSound t

/-! ### The runner list (chapter 8) -/

/-- An arrival: a SHOWN buffer with the slot takes the pass and is rendered again; a queue entry with it
takes pass and tick, and the head test follows if it is the head; else an entry with a hold joins the tail,
after a full queue has dropped, released and counted its head, and the head test follows if the queue was
empty or full (R144). -/
def Claims.ArrivalResult : Prop :=
  ∀ (slot : Slot) (bib : Nat) (pass : PassNo) (tick : Nat) (s : State),
    let entry : QueueEntry := { slot, bib, pass, tick }
    let moved (e : QueueEntry) : QueueEntry := if e.slot = slot then { e with pass, tick } else e
    (∀ (j : Nat) (line : ListLine), s.ls.buffers[j]? = some (some line) → line.slot = slot →
      (∀ i < j, ∀ o, s.ls.buffers[i]? = some (some o) → o.slot ≠ slot) →
      arrive slot bib pass tick s = rerenderBuffer j line pass s) ∧
    ((∀ line, some line ∈ s.ls.buffers → line.slot ≠ slot) →
      (∀ head rest, s.ls.queue = head :: rest → (∃ e ∈ s.ls.queue, e.slot = slot) →
        let t := s.withLs { s.ls with queue := s.ls.queue.map moved }
        arrive slot bib pass tick s = if head.slot = slot then headTest t else t) ∧
      (s.ls.queue = [] →
        arrive slot bib pass tick s =
          headTest ((s.withLs { s.ls with queue := [entry] }).withRt (s.rt.hold slot))) ∧
      (∀ head rest, s.ls.queue = head :: rest → (∀ e ∈ s.ls.queue, e.slot ≠ slot) →
        (s.ls.queue.length < 64 →
          arrive slot bib pass tick s =
            (s.withLs { s.ls with queue := s.ls.queue ++ [entry] }).withRt (s.rt.hold slot)) ∧
        (64 ≤ s.ls.queue.length →
          arrive slot bib pass tick s =
            headTest ((s.withLs
              { s.ls with
                queue := rest ++ [entry], drops := min 65535 (s.ls.drops + 1) }).withRt
              ((s.rt.release head.slot).hold slot)))))

/-- The head test: with the queue empty it ends; a stale head is dropped, released and counted; an eligible
head is inserted when the bottom buffer is EMPTY or has dwelt the min dwell, the ring turning by one, the
recycled buffer's hold released and all list lines written; each is followed by the test again; else the
head waits (R143, R145 to R147). -/
def Claims.HeadTestCases : Prop :=
  ∀ s : State,
    (s.ls.queue = [] → headTest s = s) ∧
    ∀ (e : QueueEntry) (rest : List QueueEntry), s.ls.queue = e :: rest →
      let clock := s.cmu.clock.value
      let bottom := (s.ls.top + s.ls.buffers.length - 1) % s.ls.buffers.length
      let free : Prop :=
        ∀ line, s.ls.buffers[bottom]? = some (some line) → line.shownAt + s.ls.minDwell ≤ s.localTime
      let line (t : RunnerTable) : ListLine :=
        { slot := e.slot, bib := e.bib, pass := e.pass, shownAt := s.localTime
          cells := (runnerLine (t.recordOf e.slot e.bib) (some e.pass)).map fun x =>
            { char := x, emphasis := false } }
      let table : RunnerTable :=
        match s.ls.buffers[bottom]? with
        | some (some old) => s.rt.release old.slot
        | _ => s.rt
      (e.tick + s.ls.leadDelay + s.ls.ageLimit < clock →
        headTest s =
          headTest ((s.withRt (s.rt.release e.slot)).withLs
            { s.ls with queue := rest, drops := min 65535 (s.ls.drops + 1) })) ∧
      (clock ≤ e.tick + s.ls.leadDelay + s.ls.ageLimit →
        (e.tick + s.ls.leadDelay ≤ clock → free →
          headTest s =
            headTest (writeList ((s.withRt table).withLs
              { s.ls with
                top := bottom, buffers := s.ls.buffers.set bottom (some (line table))
                queue := rest }))) ∧
        (clock < e.tick + s.ls.leadDelay ∨ ¬ free → headTest s = s))

/-- A buffer rendered again takes the pass named and the cells of the record as it stands, keeps its slot, bib,
place and shown time, and its cells are written to the board line that shows it, board line B + i for buffer
(top + i) mod K; nothing else changes (R139, R141, R144). -/
def Claims.BufferIsRenderedAgain : Prop :=
  ∀ (i : Nat) (line : ListLine) (pass : PassNo) (s : State),
    i < s.ls.buffers.length → s.ls.top < s.ls.buffers.length →
    let j := (s.ls.top + i) % s.ls.buffers.length
    let cells := (runnerLine (s.rt.recordOf line.slot line.bib) (some pass)).map fun x =>
      ({ char := x, emphasis := false } : Cell)
    rerenderBuffer j line pass s =
      (s.withLs
        { s.ls with buffers := s.ls.buffers.set j (some { line with pass, cells }) }).writeLines
        (s.bi.bandHeight + i) [cells]

/-- `Claims.ArrivalResult`, `Claims.BufferIsRenderedAgain`, `Claims.HeadTestCases`, each with the rules it
names. -/
def Obligations.ListArrivalsAndInsertions : Prop :=
  Claims.ArrivalResult ∧
    Claims.BufferIsRenderedAgain ∧
    Claims.HeadTestCases

/-- MIN_DWELL_REACHED: once the bottom buffer has been SHOWN for the min dwell the head test is made;
before, nothing happens (R146). -/
def Claims.MinDwellReachedResult : Prop :=
  ∀ s : State, s.resetHeld = false →
    let bottom := (s.ls.top + s.ls.buffers.length - 1) % s.ls.buffers.length
    exec .minDwellReached s = .next
      (match s.ls.buffers[bottom]? with
       | some (some line) =>
         if line.shownAt + s.ls.minDwell ≤ s.localTime then headTest s else s
       | _ => s)

/-- LINE_EXPIRY of a buffer SHOWN for the line expiry: it becomes EMPTY in its place, its hold is released,
its board line is written as spaces, and the head test follows if it is the bottom buffer; a line expiry of
0 expires nothing (R149). -/
def Claims.LineExpiryResult : Prop :=
  ∀ (j : Fin 12) (s : State), s.resetHeld = false →
    let k := s.ls.buffers.length
    (∀ line, s.ls.buffers[j.val]? = some (some line) → s.ls.lineExpiry ≠ 0 →
      line.shownAt + s.ls.lineExpiry ≤ s.localTime →
      let t := (((s.withRt (s.rt.release line.slot)).withLs
        { s.ls with buffers := s.ls.buffers.set j.val none }).writeLines
          (s.bi.bandHeight + (j.val + k - s.ls.top) % k) [List.replicate 48 Cell.blank])
      exec (.lineExpiry j) s = .next
        (if j.val = (s.ls.top + k - 1) % k then headTest t else t)) ∧
    ((∀ line, s.ls.buffers[j.val]? = some (some line) →
        s.ls.lineExpiry = 0 ∨ s.localTime < line.shownAt + s.ls.lineExpiry) →
      exec (.lineExpiry j) s = .next s)

/-- List Timing stores all four values, clamped, expires the lines already due, then makes the head test
(R151). -/
def Claims.ListTimingResult : Prop :=
  ∀ (c : Channel) (p : Packet) (s : State), Delivered .listTiming c p s →
    let l := payloadOf p
    let expiry := longAt l 2
    exec (.listTiming p) s = .next
      (headTest (expireLines s.ls.buffers.length (s.withLs
        { s.ls with
          minDwell := max 500 (min 10000 (halfAt l 0))
          lineExpiry := if expiry = 0 then 0 else max 5000 (min 600000 expiry)
          leadDelay := min 6000 (halfAt l 6)
          ageLimit := max 100 (min 12000 (halfAt l 8)) })))

/-- Expiring the lines already due: with a line expiry other than 0 every buffer SHOWN for at least that long
becomes EMPTY in its place and its hold is released, and the board line that shows it is written as spaces;
the other buffers, the other lines of a board of B + K lines and all else stay (R149, R151). -/
def Claims.LinesAlreadyDueExpire : Prop :=
  ∀ s : State,
    let k := s.ls.buffers.length
    let t := expireLines k s
    let due : Option ListLine → Bool
      | some line => s.ls.lineExpiry != 0 && decide (line.shownAt + s.ls.lineExpiry ≤ s.localTime)
      | none => false
    t =
        ((s.withLs
          { s.ls with buffers := s.ls.buffers.map fun b => if due b then none else b }).withRt
          { s.rt with holds := t.rt.holds }).withBi { s.bi with image := t.bi.image } ∧
      (∀ i : Slot, t.rt.holds[i] =
        s.rt.holds[i] -
          ((s.ls.buffers.filter due).filterMap fun b => b.map fun line => line.slot).count i) ∧
      (s.ls.top < k → s.bi.image.length = s.bi.bandHeight + k →
        t.bi.image.length = s.bi.image.length ∧
        (∀ n < s.bi.bandHeight, t.bi.image[n]? = s.bi.image[n]?) ∧
        ∀ i < k, ∀ b, s.ls.buffers[(s.ls.top + i) % k]? = some b →
          t.bi.image[s.bi.bandHeight + i]? =
            if due b then some (List.replicate 48 Cell.blank)
            else s.bi.image[s.bi.bandHeight + i]?)

/-- `Claims.MinDwellReachedResult`, `Claims.LineExpiryResult`, `Claims.ListTimingResult`,
`Claims.LinesAlreadyDueExpire`, each with the rules it names. -/
def Obligations.ListTimers : Prop :=
  Claims.MinDwellReachedResult ∧
    Claims.LineExpiryResult ∧
    Claims.ListTimingResult ∧
    Claims.LinesAlreadyDueExpire

/-- What arrivals, head tests and expiries reach: the board queue, the list lines with their top offset and
drop count, the hold counts and the board image; the four list settings stay (R141, R144 to R149). -/
def Claims.ListEventsReachOnlyTheList : Prop :=
  ∀ (s : State) (slot : Slot) (bib : Nat) (pass : PassNo) (tick n : Nat),
    OnlyList s (arrive slot bib pass tick s) ∧ OnlyList s (headTest s) ∧ OnlyList s (expireLines n s)

/-- A change of the clock's value has the idle band clock rendered again and then the head test made (R135,
R146). -/
def Claims.ClockChangeRendersAndTests : Prop :=
  ∀ s : State, clockValueChanged s = headTest (renderIdleClock s)

/-- `Claims.ClockChangeRendersAndTests`, `Claims.ClockChangeReachesOnlyTheBoard`,
`Claims.RerenderReachesOnlyTheBoard`, `Claims.BandEventsReachOnlyTheBand`, `Claims.ListEventsReachOnlyTheList`,
each with the rules it names. -/
def Obligations.OperationsReachOnlyTheirBlocks : Prop :=
  Claims.ClockChangeRendersAndTests ∧
    Claims.ClockChangeReachesOnlyTheBoard ∧
    Claims.RerenderReachesOnlyTheBoard ∧
    Claims.BandEventsReachOnlyTheBand ∧
    Claims.ListEventsReachOnlyTheList

/-- The board queue stays within 64 entries, neither controller refers to a slot twice, the board keeps its
shape, with every defined window on it, and shows the list's buffers in ring order, and the hold counts count
the references, each to an occupied slot that holds its bib, at every step (R66, R120, R139, R142, R155, R157,
R161). -/
def Obligations.EveryStepKeepsReferencesSound : Prop :=
  ∀ s t : State, ReferencesSound s → step s = .next t → ReferencesSound t

/-- Victim choice always finds a victim: pinned and held slots cover at most 148 of the 256 (R68). -/
def Claims.VictimChoiceAlwaysFinds : Prop :=
  ∀ s : State, AllocationSound s → ∃ i, s.rt.victim = some i

/-- On every sound state every command is carried out: no command stops the device (R7, R45, R68). -/
def Claims.SoundStatesNeverStop : Prop :=
  ∀ (i : Instr) (s : State), AllocationSound s → ∃ t, exec i s = .next t

/-- `Claims.VictimChoiceAlwaysFinds`, `Claims.SoundStatesNeverStop`, each with the rules it names.
-/
def Obligations.EveryCommandIsCarriedOut : Prop :=
  Claims.VictimChoiceAlwaysFinds ∧
    Claims.SoundStatesNeverStop

/-! ### The board (chapter 9) -/

/-- Board Layout: BAD_VALUE for N, B or clock wave out of range; one that differs in no value changes
nothing; else the values are stored and the image resized, the list emptied and refilled if N or B
changed, the band acts on the new B, and windows beyond the board become unused and are flagged (R119,
R152, R156, R157, R162). -/
def Claims.BoardLayoutResult : Prop :=
  ∀ (c : Channel) (p : Packet) (s : State), Delivered .boardLayout c p s →
    let l := payloadOf p
    let n := byteAt l 0
    let b := byteAt l 1
    (n = 0 ∨ 12 < n ∨ 4 < b ∨ n ≤ b ∨ 7 < byteAt l 2 →
      exec (.boardLayout p) s = .next (s.refuse c 0x17#8 .badValue)) ∧
    ∀ w : Wave, w.val = byteAt l 2 → 1 ≤ n → n ≤ 12 → b ≤ 4 → b < n →
      let old := s.bi
      let sized := s.withBi
        { old with
          lineCount := n, bandHeight := b, clockWave := w
          image := old.image.take n ++ List.replicate (n - old.image.length) blankLine }
      let listed :=
        if n ≠ old.lineCount ∨ b ≠ old.bandHeight then headTest (writeList (emptyList (n - b) sized))
        else sized
      let banded :=
        if b = 0 then endShown false listed
        else if old.bandHeight = 0 then selectFeature listed
        else if b ≠ old.bandHeight then renderBand listed
        else if w ≠ old.clockWave then renderIdleClock listed
        else listed
      let lost (i : Fin 6) : Prop := ∃ v ∈ old.windows[i], n ≤ v.lastLine
      (n = old.lineCount → b = old.bandHeight → w = old.clockWave →
        exec (.boardLayout p) s = .next s) ∧
      (¬ (n = old.lineCount ∧ b = old.bandHeight ∧ w = old.clockWave) →
        ∃ windows unusable, exec (.boardLayout p) s = .next
            (banded.withBi { banded.bi with windows, unusable }) ∧
          ∀ i : Fin 6,
            (lost i → windows[i] = none ∧ unusable[i] = true) ∧
            (¬ lost i → windows[i] = old.windows[i] ∧ unusable[i] = old.unusable[i]))

/-- Emptying the list for a new layout: K buffers, all EMPTY, top offset 0; a hold is released for each
buffer that was SHOWN; the board queue is kept (R152). -/
def Claims.LayoutEmptiesTheList : Prop :=
  ∀ (k : Nat) (s : State),
    let t := emptyList k s
    t = (s.withRt { s.rt with holds := t.rt.holds }).withLs
        { s.ls with buffers := List.replicate k none, top := 0 } ∧
    ∀ i : Slot, t.rt.holds[i] =
      s.rt.holds[i] - (s.ls.buffers.filterMap fun b => b.map fun line => line.slot).count i

/-- `Claims.BoardLayoutResult`, `Claims.LayoutEmptiesTheList`, each with the rules it names. -/
def Obligations.BoardLayoutRequests : Prop :=
  Claims.BoardLayoutResult ∧
    Claims.LayoutEmptiesTheList

/-- Display Mode, Brightness, Duty Table and Scan Period: the setting is stored, clamped where the rule
says so, or refused BAD_VALUE and kept; nothing else changes (R158, R159, R160, R163). -/
def Claims.DisplaySettingsResult : Prop :=
  ∀ (c : Channel) (p : Packet) (s : State),
    (Delivered .displayMode c p s →
      exec (.displayMode p) s = .next
        (match paramOf p with
         | 0 => s.withBi { s.bi with display := .normal }
         | 1 => s.withBi { s.bi with display := .blank }
         | 2 => s.withBi { s.bi with display := .test }
         | 3 => s.withBi { s.bi with display := .inverse }
         | _ => s.refuse c 0x18#8 .badValue)) ∧
    (Delivered .brightness c p s →
      ∃ level : Fin 16, level.val = min 15 (paramOf p) ∧
        exec (.brightness p) s = .next (s.withBi { s.bi with brightness := level })) ∧
    (Delivered .dutyTable c p s →
      let entry (i : Nat) : Nat := byteAt (payloadOf p) i
      let ok : Prop := (∀ i < 15, entry i ≤ entry (i + 1)) ∧ entry 0 < entry 15
      (¬ ok → exec (.dutyTable p) s = .next (s.refuse c 0x1A#8 .badValue)) ∧
      (ok → ∃ duty : Vector Byte 16, (∀ i : Fin 16, duty[i].toNat = entry i.val) ∧
        exec (.dutyTable p) s = .next (s.withBi { s.bi with duty }))) ∧
    (Delivered .scanPeriod c p s →
      exec (.scanPeriod p) s = .next
        (s.withBi { s.bi with scanPeriod := max 50 (min 1000 (paramOf p)) }))

/-- Panel Window: BAD_VALUE for a window number, or for a definition that fails a check; else the window
takes the definition or becomes unused and its unusable flag is cleared; nothing else changes (R161,
R162). -/
def Claims.PanelWindowResult : Prop :=
  ∀ (c : Channel) (p : Packet) (s : State), Delivered .panelWindow c p s →
    let l := payloadOf p
    let w : Window :=
      { address := byteAt l 1, firstLine := byteAt l 2, lastLine := byteAt l 3,
        firstCell := byteAt l 4, lastCell := byteAt l 5, turned := byteAt l 6 % 2 == 1 }
    let bad : Prop :=
      5 < w.address ∨ w.lastLine < w.firstLine ∨ s.bi.lineCount ≤ w.lastLine ∨
        w.lastCell < w.firstCell ∨ 47 < w.lastCell
    let put (i : Fin 6) (x : Option Window) : State := s.withBi
      { s.bi with windows := s.bi.windows.set i x, unusable := s.bi.unusable.set i false }
    (5 < byteAt l 0 ∨ (byteAt l 1 ≠ 0xFF ∧ bad) →
      exec (.panelWindow p) s = .next (s.refuse c 0x1B#8 .badValue)) ∧
    ∀ i : Fin 6, i.val = byteAt l 0 →
      (byteAt l 1 = 0xFF → exec (.panelWindow p) s = .next (put i none)) ∧
      (byteAt l 1 ≠ 0xFF → ¬ bad → exec (.panelWindow p) s = .next (put i (some w)))

/-- `Claims.DisplaySettingsResult`, `Claims.PanelWindowResult`, each with the rules it names. -/
def Obligations.DisplayRequests : Prop :=
  Claims.DisplaySettingsResult ∧
    Claims.PanelWindowResult

/-- The bytes of a frame: panel address, lines, cells per line and duty, two bytes for each cell, and the
CRC-16 of all these with its high byte first. The cells come by lines from the first to the last, each from
its first cell to its last, and a turned window's by lines and cells from the last to the first. Duty,
character and attribute byte (bit 0 emphasis, bit 1 inverse) are those of the display mode, the duty of
NORMAL and INVERSE being the duty table's entry at the brightness (R158, R159, R164, 11.6). Bits 7 to 2 of the
attribute byte are 0 by the model's choice (log 22). -/
def Claims.FrameContents : Prop :=
  ∀ (b : BoardState) (w : Window),
    w.firstLine ≤ w.lastLine → w.lastLine < b.image.length → w.firstCell ≤ w.lastCell →
    w.lastCell ≤ 47 → (∀ row ∈ b.image, row.length = 48) →
    let lines := w.lastLine + 1 - w.firstLine
    let cells := w.lastCell + 1 - w.firstCell
    let duty : Byte :=
      match b.display with
      | .normal => b.duty[b.brightness]
      | .inverse => b.duty[b.brightness]
      | .blank => 0#8
      | .test => 255#8
    let sent (line cell : Nat) : List Byte :=
      let x := ((b.image[line]?.getD [])[cell]?).getD Cell.blank
      match b.display with
      | .normal => [x.char, if x.emphasis then 1#8 else 0#8]
      | .inverse => [x.char, if x.emphasis then 3#8 else 2#8]
      | .blank => [0x20#8, 0#8]
      | .test => [0x7F#8, 1#8]
    let body : List Byte :=
      [BitVec.ofNat 8 w.address, BitVec.ofNat 8 lines, BitVec.ofNat 8 cells, duty] ++
        (List.range lines).flatMap fun i =>
          (List.range cells).flatMap fun j =>
            if w.turned then sent (w.lastLine - i) (w.lastCell - j)
            else sent (w.firstLine + i) (w.firstCell + j)
    frameBytes b w = body ++ Claims.two (crc16 body).toNat

/-- SCAN_START once the period has passed since the start of the scan before and no frame is being sent,
and FRAME_SENT of the frame being sent: the frame of the next defined window, in ascending number, is built
with its bytes as they stand, and without one the scan ends; nothing else changes. Before that neither has
an effect (R163, R164). -/
def Claims.ScanStartAndFrameSent : Prop :=
  ∀ (e : Instr) (start : Nat) (base : BoardState) (s : State), s.resetHeld = false →
    ((e = .scanStart ∧ s.bi.sending = none ∧ s.bi.scanFrom + s.bi.scanPeriod ≤ s.localTime ∧
        start = 0 ∧ base = { s.bi with scanFrom := s.localTime }) ∨
      (∃ f, e = .frameSent ∧ s.bi.sending = some f ∧ start = f.window.val + 1 ∧ base = s.bi) →
      (∀ (i : Fin 6) (w : Window), start ≤ i.val → s.bi.windows[i] = some w →
        (∀ j : Fin 6, start ≤ j.val → j < i → s.bi.windows[j] = none) →
        exec e s = .next (s.withBi
          { base with sending := some { window := i, bytes := frameBytes base w } })) ∧
      ((∀ i : Fin 6, start ≤ i.val → s.bi.windows[i] = none) →
        exec e s = .next (s.withBi { base with sending := none }))) ∧
    (s.bi.sending ≠ none ∨ s.localTime < s.bi.scanFrom + s.bi.scanPeriod →
      exec .scanStart s = .next s) ∧
    (s.bi.sending = none → exec .frameSent s = .next s)

/-- `Claims.ScanStartAndFrameSent`, `Claims.FrameContents`, each with the rules it names. -/
def Obligations.ScanSendsWindowsInOrder : Prop :=
  Claims.ScanStartAndFrameSent ∧
    Claims.FrameContents

/-- The runner line template: five cells of the bib, right-justified; 16 of the name, cut or padded, spaces
when it is absent; 7 of the race time, 5 of the pace and 7 of the projection of the pass, dashes when no pass
is rendered; "P2 " for pass 2, else spaces; one space between them, 48 cells in all (R140). -/
def Claims.RunnerLineTemplate : Prop :=
  ∀ (r : Record) (pass : Option PassNo),
    let lead (limit : Nat) (n : Nat) : Byte := if r.bib < limit then 0x20#8 else digit n
    let d : Derived :=
      match pass with
      | some .one => r.derived1
      | some .two => r.derived2
      | none => Derived.absent
    let mark : List Byte := if pass = some .two then [0x50#8, 0x32#8, 0x20#8] else List.replicate 3 0x20#8
    runnerLine r pass =
        [lead 10000 (r.bib / 10000), lead 1000 (r.bib / 1000), lead 100 (r.bib / 100),
          lead 10 (r.bib / 10), digit r.bib] ++ [0x20#8] ++
        ((List.range 16).map fun i => (r.name.getD []).getD i 0x20#8) ++ [0x20#8] ++
        timeText d.raceTime ++ [0x20#8] ++ paceText d.pace ++ [0x20#8] ++ timeText d.projection ++
        [0x20#8] ++ mark ∧
      (runnerLine r pass).length = 48

/-- The B band lines. A runner or leader, from the record of its slot, pass 2 if it is held, else pass 1, else
none, every cell emphasised: with B of 1 the runner line template, "LEAD" in place of its last four cells for
a leader; with B of 2 or more bib, 20 characters of the name and "LEAD", then the pass's values and mark, then
spaces. A message: its lines, as far as they go and B goes, then spaces. Nothing shown: the clock wave's name
and the band clock, then spaces; emphasis clear in both (R134, R135). After a correction that clears pass 2
with pass 1 held, rendering pass 1 is the model's choice between R84 and R134 (log 21). -/
def Claims.BandLines : Prop :=
  ∀ s : State,
    let height := s.bi.bandHeight
    let plain (l : List Byte) : List Cell := l.map fun x => { char := x, emphasis := false }
    let strong (l : List Byte) : List Cell := l.map fun x => { char := x, emphasis := true }
    let gaps (n : Nat) : List Byte := List.replicate n 0x20#8
    (s.fc.shown = none →
      (height = 0 → bandRows s = []) ∧
      ∀ n, height = n + 1 →
        bandRows s =
          plain ([0x57#8, 0x41#8, 0x56#8, 0x45#8, 0x20#8, digit s.bi.clockWave.val] ++ gaps 35 ++
            bandClockText s.cmu.clock.value s.cmu.waves[s.bi.clockWave].gun) ::
            List.replicate n (plain (gaps 48))) ∧
    (∀ g m msg, s.fc.shown = some g → g.ref = .message m → s.fc.messages[m] = some msg →
      (bandRows s).length = height ∧
      ∀ i < height,
        (bandRows s)[i]? =
          some (match msg.lines[i]? with
            | some text => plain text
            | none => plain (gaps 48))) ∧
    ∀ g e r, s.fc.shown = some g → g.ref = .runner e → s.rt.slots[e.slot] = some r →
      let pass : Option PassNo :=
        if r.pass2.isSome then some .two else if r.pass1.isSome then some .one else none
      let line := runnerLine r pass
      let leading : List Byte := [0x4C#8, 0x45#8, 0x41#8, 0x44#8]
      (height = 1 →
        bandRows s =
          [strong (match e.kind with
            | .leader => line.take 44 ++ leading
            | .runner => line)]) ∧
      ∀ n, height = n + 2 →
        bandRows s =
          strong (line.take 6 ++ ((List.range 20).map fun i => (r.name.getD []).getD i 0x20#8) ++
            gaps 18 ++
            match e.kind with
            | .leader => leading
            | .runner => gaps 4) ::
            strong (gaps 23 ++ line.drop 23) :: List.replicate n (strong (gaps 48))

/-- Writing lines that lie on the board replaces them, and leaves every other line, the number of lines and
all else as it was (R155). Writing the list writes board line B + i with the cells of buffer (top + i) mod K,
spaces for an EMPTY one (R139); a blank cell is a space with emphasis clear. Rendering the band clock writes
band line 0 alone, while nothing is shown and B is at least 1 (R135). -/
def Claims.LinesAreWritten : Prop :=
  ∀ s : State,
    Cell.blank = { char := 0x20#8, emphasis := false } ∧ blankLine = List.replicate 48 Cell.blank ∧
    (∀ (first : Nat) (rows : List (List Cell)), first + rows.length ≤ s.bi.image.length →
      let t := s.writeLines first rows
      OnlyImage s t ∧ t.bi.image.length = s.bi.image.length ∧
        ∀ n, t.bi.image[n]? =
          if first ≤ n ∧ n < first + rows.length then rows[n - first]? else s.bi.image[n]?) ∧
    (writeList s =
      s.writeLines s.bi.bandHeight
        ((List.range s.ls.buffers.length).map fun i =>
          match s.ls.buffers[(s.ls.top + i) % s.ls.buffers.length]? with
          | some (some line) => line.cells
          | _ => List.replicate 48 Cell.blank)) ∧
    (s.fc.shown = none → 1 ≤ s.bi.bandHeight →
      renderIdleClock s = s.writeLines 0 ((bandRows s).take 1)) ∧
    (s.fc.shown ≠ none ∨ s.bi.bandHeight = 0 → renderIdleClock s = s)

/-- A re-render of a slot: the buffer that shows it, if one does, is rendered again for its own pass, and then
the band, if the shown feature is a runner or leader feature for it; with neither nothing changes (R59, R77,
R101, R136, R141). -/
def Claims.RerenderResult : Prop :=
  ∀ (i : Slot) (s : State),
    let band (t : State) : State :=
      if s.fc.shown.any fun g => g.slotOf == some i then renderBand t else t
    ((∀ line, some line ∈ s.ls.buffers → line.slot ≠ i) → rerender i s = band s) ∧
    ∀ (j : Nat) (line : ListLine), s.ls.buffers[j]? = some (some line) → line.slot = i →
      (∀ n < j, ∀ o, s.ls.buffers[n]? = some (some o) → o.slot ≠ i) →
      rerender i s = band (rerenderBuffer j line line.pass s)

/-- `Claims.RunnerLineTemplate`, `Claims.BandLines`, `Claims.LinesAreWritten`, `Claims.RerenderResult`, each
with the rules it names. -/
def Obligations.BoardLinesAreRendered : Prop :=
  Claims.RunnerLineTemplate ∧
    Claims.BandLines ∧
    Claims.LinesAreWritten ∧
    Claims.RerenderResult

/-- Read Lines: BAD_VALUE for lines outside the board; else the reply carries N, B, the first line and the
lines as the image holds them, whatever the display mode; nothing else changes (R166). -/
def Claims.ReadLinesResult : Prop :=
  ∀ (c : Channel) (p : Packet) (s : State), Delivered .readLines c p s →
    let first := paramOf p / 256
    let count := paramOf p % 256
    exec (.readLines p) s = .next
      (if s.bi.lineCount ≤ first ∨ count = 0 ∨ 12 < count ∨ s.bi.lineCount < first + count then
        s.refuse c 0x1E#8 .badValue
       else s.withLc
        { s.lc with
          replies := s.lc.replies.set c
            (s.lc.replies[c] ++
              [.lines s.bi.lineCount s.bi.bandHeight first
                ((s.bi.image.drop first).take count)]) })

/-! ### Attention, status, race clear (chapter 10) -/

/-- The ATTN line of a channel is asserted exactly while RESET is not asserted and a condition is present
and enabled in its mask; the six conditions are those of R168. -/
def Claims.AttentionConditions : Prop :=
  ∀ (s : State) (c : Channel),
    ((present s c).getLsbD 0 = true ↔ s.lc.errors[c] ≠ ErrorRecord.empty) ∧
    ((present s c).getLsbD 1 = true ↔ s.lc.replies[c] ≠ []) ∧
    ((present s c).getLsbD 2 = true ↔ ∀ start, s.cmu.clock.state ≠ .running start) ∧
    ((present s c).getLsbD 3 = true ↔
      (c = 0 ∧ (0 < s.att.countsA.lost ∨ 0 < s.att.countsA.orphan)) ∨
        (c = 1 ∧ (0 < s.att.countsB.lost ∨ 0 < s.att.countsB.orphan))) ∧
    ((present s c).getLsbD 4 = true ↔ c = 2 ∧ ∃ e ∈ s.rt.fills, e.sent = false) ∧
    ((present s c).getLsbD 5 = true ↔ c = 2 ∧ s.att.logThreshold ≤ s.sl.entries.length) ∧
    (s.attn c = true ↔ s.resetHeld = false ∧
      ∃ i < 6, (present s c).getLsbD i = true ∧ s.att.masks[c].getLsbD i = true)

/-- Status: one reply with every item of R170 as it stands, bit w of the unusable windows for window w,
conditions taken before the reply joins the queue and before the counts are cleared; a reader's two counts are
then 0; nothing else changes (R32, R86, R117, R137, R153, R162, R170). -/
def Claims.StatusResult : Prop :=
  ∀ (c : Channel) (p : Packet) (s : State), Delivered .status c p s →
    let zero : MarkCounts := { lost := 0, orphan := 0 }
    ∃ unusable : BitVec 6, (∀ w : Fin 6, unusable.getLsbD w.val = s.bi.unusable[w]) ∧
    let reply : StatusReply :=
      { clock := s.cmu.clock
        occupied := ((List.finRange 256).filter fun i => s.rt.slots[i].isSome).length
        pinned := s.rt.pinnedCount, staleFills := s.rt.staleFills
        waiting := (s.rt.fills.filter fun e => !e.sent).length
        sent := (s.rt.fills.filter fun e => e.sent).length
        logOldest := (s.sl.entries.head?.map fun e => e.number).getD s.sl.next
        logCount := s.sl.entries.length, logNext := s.sl.next
        logRefused := s.sl.refused, queued := s.ls.queue.length, queueDrops := s.ls.drops
        shownLevel := s.fc.shown.map fun g => g.level, suspended := s.fc.stack.length
        featureDrops := s.fc.drops, unusable, conditions := present s c
        marks :=
          if c = 0 then
            some (s.cmu.marksA.queue.length, s.att.countsA.lost, s.att.countsA.orphan)
          else if c = 1 then
            some (s.cmu.marksB.queue.length, s.att.countsB.lost, s.att.countsB.orphan)
          else none }
    exec (.status p) s = .next
      ((s.withLc
          { s.lc with replies := s.lc.replies.set c (s.lc.replies[c] ++ [.status reply]) }).withAtt
        { s.att with
          countsA := if c = 0 then zero else s.att.countsA
          countsB := if c = 1 then zero else s.att.countsB })

/-- `Claims.ReadLinesResult`, `Claims.StatusResult`, each with the rules it names. -/
def Obligations.AskingTheBoardAndStatus : Prop :=
  Claims.ReadLinesResult ∧
    Claims.StatusResult

/-- Attention Mask stores the six flags as the channel's own mask, and from channel 2 alone the threshold,
clamped to 1 to 2,048; nothing else changes (R116, R169). -/
def Claims.AttentionMaskResult : Prop :=
  ∀ (c : Channel) (p : Packet) (s : State), Delivered .attentionMask c p s →
    exec (.attentionMask p) s = .next (s.withAtt
      { s.att with
        masks := s.att.masks.set c (BitVec.ofNat 6 (byteAt (payloadOf p) 0))
        logThreshold :=
          if c = 2 then max 1 (min 2048 (halfAt (payloadOf p) 1)) else s.att.logThreshold })

/-- `Claims.AttentionConditions`, `Claims.AttentionMaskResult`, each with the rules it names. -/
def Obligations.AttentionFollowsTheMask : Prop :=
  Claims.AttentionConditions ∧
    Claims.AttentionMaskResult

/-- Channel Reset from c: its reply queue and error record are emptied, its mask enables all six
conditions, a reader's marks, next mark number and counts are cleared, and the hold of c in HELD ends with
a test of the withdrawal conditions; the grant does not move otherwise, and nothing else changes (R22,
R33, R173). -/
def Claims.ChannelResetResult : Prop :=
  ∀ (c : Channel) (p : Packet) (s : State), Delivered .channelReset c p s →
    let none_ : ReaderMarks := { queue := [], next := 0#8 }
    let zero : MarkCounts := { lost := 0, orphan := 0 }
    let l :=
      { s.lc with
        replies := s.lc.replies.set c [], errors := s.lc.errors.set c ErrorRecord.empty }
    ∃ t, exec (.channelReset p) s = .next t ∧
      t = ((s.withLc t.lc).withCmu
          { s.cmu with
            marksA := if c = 0 then none_ else s.cmu.marksA
            marksB := if c = 1 then none_ else s.cmu.marksB }).withAtt
        { s.att with
          masks := s.att.masks.set c 0x3F#6
          countsA := if c = 0 then zero else s.att.countsA
          countsB := if c = 1 then zero else s.att.countsB } ∧
      (∀ from_, s.lc.grant = .held c from_ → s.lc.holdFrom ≠ none →
        t.lc = withdrawalTest s.localTime { l with holdFrom := none }) ∧
      (s.lc.holdFrom = none ∨ (∀ from_, s.lc.grant ≠ .held c from_) → t.lc = l)

/-- Race Clear: the clock is STOPPED at 0, marks and guns are cleared, the runner table, the pass, the log,
the feature band with its leader flags and the runner list are emptied and their lines written; every
setting, the mark numbers, the wave ranges, the masks and the whole link state are kept (R22, R40, R87,
R104, R118, R138, R154, R167, R172). -/
def Claims.RaceClearResult : Prop :=
  ∀ (c : Channel) (p : Packet) (s : State), Delivered .raceClear c p s →
    ∃ t, exec (.raceClear p) s = .next t ∧
      (t.lc = s.lc ∧ t.ci = s.ci ∧ t.resetHeld = s.resetHeld ∧ t.localTime = s.localTime) ∧
      (t.cmu.clock = { value := 0, state := .stopped } ∧
        t.cmu.marksA = { s.cmu.marksA with queue := [] } ∧
        t.cmu.marksB = { s.cmu.marksB with queue := [] } ∧
        ∀ w : Wave, t.cmu.waves[w] = { s.cmu.waves[w] with gun := none }) ∧
      ((∀ i : Slot, t.rt.slots[i] = none ∧ t.rt.holds[i] = 0) ∧
        t.rt.order = (List.finRange 256).reverse ∧ t.rt.fills = [] ∧ t.rt.staleFills = 0) ∧
      t.sa.position = none ∧
      t.sl = { entries := [], next := 0#16, refused := 0, gapArmed := false } ∧
      ((∀ k : Level, t.fc.queues[k] = []) ∧ (∀ m : Fin 8, t.fc.messages[m] = none) ∧
        t.fc.shown = none ∧ t.fc.stack = [] ∧ t.fc.rotation = [1, 2, 3, 4, 5, 6, 7] ∧
        t.fc.leader1 = false ∧ t.fc.leader2 = false ∧ t.fc.drops = 0 ∧ t.fc.mode = s.fc.mode ∧
        t.fc.mask = s.fc.mask ∧ t.fc.leaderLevel = s.fc.leaderLevel ∧
        t.fc.runnerDwell = s.fc.runnerDwell) ∧
      t.ls =
        { s.ls with
          buffers := List.replicate s.ls.buffers.length none, top := 0, queue := [], drops := 0 } ∧
      (t.bi = { s.bi with image := t.bi.image } ∧
        (BoardSound s →
          t.bi.image =
            bandRows t ++
              List.replicate s.ls.buffers.length (List.replicate 48 { char := 0x20#8, emphasis := false }))) ∧
      t.att =
        { s.att with
          countsA := { lost := 0, orphan := 0 }, countsB := { lost := 0, orphan := 0 } }

/-- `Claims.ChannelResetResult`, `Claims.RaceClearResult`, each with the rules it names. -/
def Obligations.ResetRequests : Prop :=
  Claims.ChannelResetResult ∧
    Claims.RaceClearResult

/-! ### Events that are not due -/

/-- An event whose rule does not hold does not happen: nothing changes (the model's convention, log 2). -/
def Claims.EventsThatAreNotDueChangeNothing : Prop :=
  ∀ s : State, s.resetHeld = false →
    (s.lc.burst = none → ∀ tail,
      exec (.normalClose tail) s = .next s ∧ exec (.turnClose tail) s = .next s ∧
        exec (.cut tail) s = .next s) ∧
    (s.lc.replyBurst = none → exec .replyBurstEnd s = .next s) ∧
    (s.hearing = none → ∀ h k p,
      exec (.headerBad h) s = .next s ∧ exec (.unknownKind k p) s = .next s) ∧
    (∀ c : Channel,
      (s.lc.requestLine[c] = true → exec (.requestRaised c) s = .next s) ∧
      (s.lc.requestLine[c] = false → exec (.requestDropped c) s = .next s)) ∧
    (s.lc.masterBusy = false → exec .busyRelease s = .next s) ∧
    ((∀ c t, s.lc.grant ≠ .offered c t) → exec .offerTimerExpiry s = .next s) ∧
    ((∀ c t, s.lc.grant ≠ .held c t) → exec .tenureReached s = .next s) ∧
    ((∀ c t, s.lc.grant ≠ .withdrawing c (some t)) → exec .withdrawalGraceEnd s = .next s) ∧
    (s.lc.holdFrom = none → exec .holdLimit s = .next s) ∧
    (s.sa.position = none → exec .passVisit s = .next s)

/-- `Claims.IdleStepTakesDueEventElsePassesTime`, `Claims.DueEventsInOrder`,
`Claims.EventsThatAreNotDueChangeNothing`, each with the rules it names. -/
def Obligations.LocalTimeConventions : Prop :=
  Claims.IdleStepTakesDueEventElsePassesTime ∧
    Claims.DueEventsInOrder ∧
    Claims.EventsThatAreNotDueChangeNothing
end

