-- ==== Sys2Proof/Laws/State.lean ====
section
/-! SUPPORT. What each update of one block does to each field of the state, one lemma per field per
update. -/

namespace Sys2Proof.Machine

/-! ### `State.withLc` -/

@[simp] theorem State.withLc_lc (s : State) (x : LinkState) : (s.withLc x).lc = x := rfl
@[simp] theorem State.withLc_cmu (s : State) (x : LinkState) : (s.withLc x).cmu = s.cmu := rfl
@[simp] theorem State.withLc_ci (s : State) (x : LinkState) : (s.withLc x).ci = s.ci := rfl
@[simp] theorem State.withLc_rt (s : State) (x : LinkState) : (s.withLc x).rt = s.rt := rfl
@[simp] theorem State.withLc_sa (s : State) (x : LinkState) : (s.withLc x).sa = s.sa := rfl
@[simp] theorem State.withLc_sl (s : State) (x : LinkState) : (s.withLc x).sl = s.sl := rfl
@[simp] theorem State.withLc_fc (s : State) (x : LinkState) : (s.withLc x).fc = s.fc := rfl
@[simp] theorem State.withLc_ls (s : State) (x : LinkState) : (s.withLc x).ls = s.ls := rfl
@[simp] theorem State.withLc_bi (s : State) (x : LinkState) : (s.withLc x).bi = s.bi := rfl
@[simp] theorem State.withLc_att (s : State) (x : LinkState) : (s.withLc x).att = s.att := rfl
@[simp] theorem State.withLc_localTime (s : State) (x : LinkState) : (s.withLc x).localTime = s.localTime := rfl
@[simp] theorem State.withLc_resetHeld (s : State) (x : LinkState) : (s.withLc x).resetHeld = s.resetHeld := rfl
@[simp] theorem State.withLc_pending (s : State) (x : LinkState) : (s.withLc x).pending = s.pending := rfl

/-- Putting a block back changes nothing. -/
@[simp] theorem State.withLc_self (s : State) : s.withLc s.lc = s := rfl

/-- The later of two updates of a block stands. -/
@[simp] theorem State.withLc_withLc (s : State) (x y : LinkState) :
    (s.withLc x).withLc y = s.withLc y := rfl

/-! ### `State.withCmu` -/

@[simp] theorem State.withCmu_lc (s : State) (x : CmuState) : (s.withCmu x).lc = s.lc := rfl
@[simp] theorem State.withCmu_cmu (s : State) (x : CmuState) : (s.withCmu x).cmu = x := rfl
@[simp] theorem State.withCmu_ci (s : State) (x : CmuState) : (s.withCmu x).ci = s.ci := rfl
@[simp] theorem State.withCmu_rt (s : State) (x : CmuState) : (s.withCmu x).rt = s.rt := rfl
@[simp] theorem State.withCmu_sa (s : State) (x : CmuState) : (s.withCmu x).sa = s.sa := rfl
@[simp] theorem State.withCmu_sl (s : State) (x : CmuState) : (s.withCmu x).sl = s.sl := rfl
@[simp] theorem State.withCmu_fc (s : State) (x : CmuState) : (s.withCmu x).fc = s.fc := rfl
@[simp] theorem State.withCmu_ls (s : State) (x : CmuState) : (s.withCmu x).ls = s.ls := rfl
@[simp] theorem State.withCmu_bi (s : State) (x : CmuState) : (s.withCmu x).bi = s.bi := rfl
@[simp] theorem State.withCmu_att (s : State) (x : CmuState) : (s.withCmu x).att = s.att := rfl
@[simp] theorem State.withCmu_localTime (s : State) (x : CmuState) : (s.withCmu x).localTime = s.localTime := rfl
@[simp] theorem State.withCmu_resetHeld (s : State) (x : CmuState) : (s.withCmu x).resetHeld = s.resetHeld := rfl
@[simp] theorem State.withCmu_pending (s : State) (x : CmuState) : (s.withCmu x).pending = s.pending := rfl

/-- Putting a block back changes nothing. -/
@[simp] theorem State.withCmu_self (s : State) : s.withCmu s.cmu = s := rfl

/-- The later of two updates of a block stands. -/
@[simp] theorem State.withCmu_withCmu (s : State) (x y : CmuState) :
    (s.withCmu x).withCmu y = s.withCmu y := rfl

/-! ### `State.withCi` -/

@[simp] theorem State.withCi_lc (s : State) (x : PointSettings) : (s.withCi x).lc = s.lc := rfl
@[simp] theorem State.withCi_cmu (s : State) (x : PointSettings) : (s.withCi x).cmu = s.cmu := rfl
@[simp] theorem State.withCi_ci (s : State) (x : PointSettings) : (s.withCi x).ci = x := rfl
@[simp] theorem State.withCi_rt (s : State) (x : PointSettings) : (s.withCi x).rt = s.rt := rfl
@[simp] theorem State.withCi_sa (s : State) (x : PointSettings) : (s.withCi x).sa = s.sa := rfl
@[simp] theorem State.withCi_sl (s : State) (x : PointSettings) : (s.withCi x).sl = s.sl := rfl
@[simp] theorem State.withCi_fc (s : State) (x : PointSettings) : (s.withCi x).fc = s.fc := rfl
@[simp] theorem State.withCi_ls (s : State) (x : PointSettings) : (s.withCi x).ls = s.ls := rfl
@[simp] theorem State.withCi_bi (s : State) (x : PointSettings) : (s.withCi x).bi = s.bi := rfl
@[simp] theorem State.withCi_att (s : State) (x : PointSettings) : (s.withCi x).att = s.att := rfl
@[simp] theorem State.withCi_localTime (s : State) (x : PointSettings) : (s.withCi x).localTime = s.localTime := rfl
@[simp] theorem State.withCi_resetHeld (s : State) (x : PointSettings) : (s.withCi x).resetHeld = s.resetHeld := rfl
@[simp] theorem State.withCi_pending (s : State) (x : PointSettings) : (s.withCi x).pending = s.pending := rfl

/-- Putting a block back changes nothing. -/
@[simp] theorem State.withCi_self (s : State) : s.withCi s.ci = s := rfl

/-- The later of two updates of a block stands. -/
@[simp] theorem State.withCi_withCi (s : State) (x y : PointSettings) :
    (s.withCi x).withCi y = s.withCi y := rfl

/-! ### `State.withRt` -/

@[simp] theorem State.withRt_lc (s : State) (x : RunnerTable) : (s.withRt x).lc = s.lc := rfl
@[simp] theorem State.withRt_cmu (s : State) (x : RunnerTable) : (s.withRt x).cmu = s.cmu := rfl
@[simp] theorem State.withRt_ci (s : State) (x : RunnerTable) : (s.withRt x).ci = s.ci := rfl
@[simp] theorem State.withRt_rt (s : State) (x : RunnerTable) : (s.withRt x).rt = x := rfl
@[simp] theorem State.withRt_sa (s : State) (x : RunnerTable) : (s.withRt x).sa = s.sa := rfl
@[simp] theorem State.withRt_sl (s : State) (x : RunnerTable) : (s.withRt x).sl = s.sl := rfl
@[simp] theorem State.withRt_fc (s : State) (x : RunnerTable) : (s.withRt x).fc = s.fc := rfl
@[simp] theorem State.withRt_ls (s : State) (x : RunnerTable) : (s.withRt x).ls = s.ls := rfl
@[simp] theorem State.withRt_bi (s : State) (x : RunnerTable) : (s.withRt x).bi = s.bi := rfl
@[simp] theorem State.withRt_att (s : State) (x : RunnerTable) : (s.withRt x).att = s.att := rfl
@[simp] theorem State.withRt_localTime (s : State) (x : RunnerTable) : (s.withRt x).localTime = s.localTime := rfl
@[simp] theorem State.withRt_resetHeld (s : State) (x : RunnerTable) : (s.withRt x).resetHeld = s.resetHeld := rfl
@[simp] theorem State.withRt_pending (s : State) (x : RunnerTable) : (s.withRt x).pending = s.pending := rfl

/-- Putting a block back changes nothing. -/
@[simp] theorem State.withRt_self (s : State) : s.withRt s.rt = s := rfl

/-- The later of two updates of a block stands. -/
@[simp] theorem State.withRt_withRt (s : State) (x y : RunnerTable) :
    (s.withRt x).withRt y = s.withRt y := rfl

/-! ### `State.withSa` -/

@[simp] theorem State.withSa_lc (s : State) (x : PassState) : (s.withSa x).lc = s.lc := rfl
@[simp] theorem State.withSa_cmu (s : State) (x : PassState) : (s.withSa x).cmu = s.cmu := rfl
@[simp] theorem State.withSa_ci (s : State) (x : PassState) : (s.withSa x).ci = s.ci := rfl
@[simp] theorem State.withSa_rt (s : State) (x : PassState) : (s.withSa x).rt = s.rt := rfl
@[simp] theorem State.withSa_sa (s : State) (x : PassState) : (s.withSa x).sa = x := rfl
@[simp] theorem State.withSa_sl (s : State) (x : PassState) : (s.withSa x).sl = s.sl := rfl
@[simp] theorem State.withSa_fc (s : State) (x : PassState) : (s.withSa x).fc = s.fc := rfl
@[simp] theorem State.withSa_ls (s : State) (x : PassState) : (s.withSa x).ls = s.ls := rfl
@[simp] theorem State.withSa_bi (s : State) (x : PassState) : (s.withSa x).bi = s.bi := rfl
@[simp] theorem State.withSa_att (s : State) (x : PassState) : (s.withSa x).att = s.att := rfl
@[simp] theorem State.withSa_localTime (s : State) (x : PassState) : (s.withSa x).localTime = s.localTime := rfl
@[simp] theorem State.withSa_resetHeld (s : State) (x : PassState) : (s.withSa x).resetHeld = s.resetHeld := rfl
@[simp] theorem State.withSa_pending (s : State) (x : PassState) : (s.withSa x).pending = s.pending := rfl

/-- Putting a block back changes nothing. -/
@[simp] theorem State.withSa_self (s : State) : s.withSa s.sa = s := rfl

/-- The later of two updates of a block stands. -/
@[simp] theorem State.withSa_withSa (s : State) (x y : PassState) :
    (s.withSa x).withSa y = s.withSa y := rfl

/-! ### `State.withSl` -/

@[simp] theorem State.withSl_lc (s : State) (x : SplitLog) : (s.withSl x).lc = s.lc := rfl
@[simp] theorem State.withSl_cmu (s : State) (x : SplitLog) : (s.withSl x).cmu = s.cmu := rfl
@[simp] theorem State.withSl_ci (s : State) (x : SplitLog) : (s.withSl x).ci = s.ci := rfl
@[simp] theorem State.withSl_rt (s : State) (x : SplitLog) : (s.withSl x).rt = s.rt := rfl
@[simp] theorem State.withSl_sa (s : State) (x : SplitLog) : (s.withSl x).sa = s.sa := rfl
@[simp] theorem State.withSl_sl (s : State) (x : SplitLog) : (s.withSl x).sl = x := rfl
@[simp] theorem State.withSl_fc (s : State) (x : SplitLog) : (s.withSl x).fc = s.fc := rfl
@[simp] theorem State.withSl_ls (s : State) (x : SplitLog) : (s.withSl x).ls = s.ls := rfl
@[simp] theorem State.withSl_bi (s : State) (x : SplitLog) : (s.withSl x).bi = s.bi := rfl
@[simp] theorem State.withSl_att (s : State) (x : SplitLog) : (s.withSl x).att = s.att := rfl
@[simp] theorem State.withSl_localTime (s : State) (x : SplitLog) : (s.withSl x).localTime = s.localTime := rfl
@[simp] theorem State.withSl_resetHeld (s : State) (x : SplitLog) : (s.withSl x).resetHeld = s.resetHeld := rfl
@[simp] theorem State.withSl_pending (s : State) (x : SplitLog) : (s.withSl x).pending = s.pending := rfl

/-- Putting a block back changes nothing. -/
@[simp] theorem State.withSl_self (s : State) : s.withSl s.sl = s := rfl

/-- The later of two updates of a block stands. -/
@[simp] theorem State.withSl_withSl (s : State) (x y : SplitLog) :
    (s.withSl x).withSl y = s.withSl y := rfl

/-! ### `State.withFc` -/

@[simp] theorem State.withFc_lc (s : State) (x : FeatureState) : (s.withFc x).lc = s.lc := rfl
@[simp] theorem State.withFc_cmu (s : State) (x : FeatureState) : (s.withFc x).cmu = s.cmu := rfl
@[simp] theorem State.withFc_ci (s : State) (x : FeatureState) : (s.withFc x).ci = s.ci := rfl
@[simp] theorem State.withFc_rt (s : State) (x : FeatureState) : (s.withFc x).rt = s.rt := rfl
@[simp] theorem State.withFc_sa (s : State) (x : FeatureState) : (s.withFc x).sa = s.sa := rfl
@[simp] theorem State.withFc_sl (s : State) (x : FeatureState) : (s.withFc x).sl = s.sl := rfl
@[simp] theorem State.withFc_fc (s : State) (x : FeatureState) : (s.withFc x).fc = x := rfl
@[simp] theorem State.withFc_ls (s : State) (x : FeatureState) : (s.withFc x).ls = s.ls := rfl
@[simp] theorem State.withFc_bi (s : State) (x : FeatureState) : (s.withFc x).bi = s.bi := rfl
@[simp] theorem State.withFc_att (s : State) (x : FeatureState) : (s.withFc x).att = s.att := rfl
@[simp] theorem State.withFc_localTime (s : State) (x : FeatureState) : (s.withFc x).localTime = s.localTime := rfl
@[simp] theorem State.withFc_resetHeld (s : State) (x : FeatureState) : (s.withFc x).resetHeld = s.resetHeld := rfl
@[simp] theorem State.withFc_pending (s : State) (x : FeatureState) : (s.withFc x).pending = s.pending := rfl

/-- Putting a block back changes nothing. -/
@[simp] theorem State.withFc_self (s : State) : s.withFc s.fc = s := rfl

/-- The later of two updates of a block stands. -/
@[simp] theorem State.withFc_withFc (s : State) (x y : FeatureState) :
    (s.withFc x).withFc y = s.withFc y := rfl

/-! ### `State.withLs` -/

@[simp] theorem State.withLs_lc (s : State) (x : ListState) : (s.withLs x).lc = s.lc := rfl
@[simp] theorem State.withLs_cmu (s : State) (x : ListState) : (s.withLs x).cmu = s.cmu := rfl
@[simp] theorem State.withLs_ci (s : State) (x : ListState) : (s.withLs x).ci = s.ci := rfl
@[simp] theorem State.withLs_rt (s : State) (x : ListState) : (s.withLs x).rt = s.rt := rfl
@[simp] theorem State.withLs_sa (s : State) (x : ListState) : (s.withLs x).sa = s.sa := rfl
@[simp] theorem State.withLs_sl (s : State) (x : ListState) : (s.withLs x).sl = s.sl := rfl
@[simp] theorem State.withLs_fc (s : State) (x : ListState) : (s.withLs x).fc = s.fc := rfl
@[simp] theorem State.withLs_ls (s : State) (x : ListState) : (s.withLs x).ls = x := rfl
@[simp] theorem State.withLs_bi (s : State) (x : ListState) : (s.withLs x).bi = s.bi := rfl
@[simp] theorem State.withLs_att (s : State) (x : ListState) : (s.withLs x).att = s.att := rfl
@[simp] theorem State.withLs_localTime (s : State) (x : ListState) : (s.withLs x).localTime = s.localTime := rfl
@[simp] theorem State.withLs_resetHeld (s : State) (x : ListState) : (s.withLs x).resetHeld = s.resetHeld := rfl
@[simp] theorem State.withLs_pending (s : State) (x : ListState) : (s.withLs x).pending = s.pending := rfl

/-- Putting a block back changes nothing. -/
@[simp] theorem State.withLs_self (s : State) : s.withLs s.ls = s := rfl

/-- The later of two updates of a block stands. -/
@[simp] theorem State.withLs_withLs (s : State) (x y : ListState) :
    (s.withLs x).withLs y = s.withLs y := rfl

/-! ### `State.withBi` -/

@[simp] theorem State.withBi_lc (s : State) (x : BoardState) : (s.withBi x).lc = s.lc := rfl
@[simp] theorem State.withBi_cmu (s : State) (x : BoardState) : (s.withBi x).cmu = s.cmu := rfl
@[simp] theorem State.withBi_ci (s : State) (x : BoardState) : (s.withBi x).ci = s.ci := rfl
@[simp] theorem State.withBi_rt (s : State) (x : BoardState) : (s.withBi x).rt = s.rt := rfl
@[simp] theorem State.withBi_sa (s : State) (x : BoardState) : (s.withBi x).sa = s.sa := rfl
@[simp] theorem State.withBi_sl (s : State) (x : BoardState) : (s.withBi x).sl = s.sl := rfl
@[simp] theorem State.withBi_fc (s : State) (x : BoardState) : (s.withBi x).fc = s.fc := rfl
@[simp] theorem State.withBi_ls (s : State) (x : BoardState) : (s.withBi x).ls = s.ls := rfl
@[simp] theorem State.withBi_bi (s : State) (x : BoardState) : (s.withBi x).bi = x := rfl
@[simp] theorem State.withBi_att (s : State) (x : BoardState) : (s.withBi x).att = s.att := rfl
@[simp] theorem State.withBi_localTime (s : State) (x : BoardState) : (s.withBi x).localTime = s.localTime := rfl
@[simp] theorem State.withBi_resetHeld (s : State) (x : BoardState) : (s.withBi x).resetHeld = s.resetHeld := rfl
@[simp] theorem State.withBi_pending (s : State) (x : BoardState) : (s.withBi x).pending = s.pending := rfl

/-- Putting a block back changes nothing. -/
@[simp] theorem State.withBi_self (s : State) : s.withBi s.bi = s := rfl

/-- The later of two updates of a block stands. -/
@[simp] theorem State.withBi_withBi (s : State) (x y : BoardState) :
    (s.withBi x).withBi y = s.withBi y := rfl

/-! ### `State.withAtt` -/

@[simp] theorem State.withAtt_lc (s : State) (x : AttentionState) : (s.withAtt x).lc = s.lc := rfl
@[simp] theorem State.withAtt_cmu (s : State) (x : AttentionState) : (s.withAtt x).cmu = s.cmu := rfl
@[simp] theorem State.withAtt_ci (s : State) (x : AttentionState) : (s.withAtt x).ci = s.ci := rfl
@[simp] theorem State.withAtt_rt (s : State) (x : AttentionState) : (s.withAtt x).rt = s.rt := rfl
@[simp] theorem State.withAtt_sa (s : State) (x : AttentionState) : (s.withAtt x).sa = s.sa := rfl
@[simp] theorem State.withAtt_sl (s : State) (x : AttentionState) : (s.withAtt x).sl = s.sl := rfl
@[simp] theorem State.withAtt_fc (s : State) (x : AttentionState) : (s.withAtt x).fc = s.fc := rfl
@[simp] theorem State.withAtt_ls (s : State) (x : AttentionState) : (s.withAtt x).ls = s.ls := rfl
@[simp] theorem State.withAtt_bi (s : State) (x : AttentionState) : (s.withAtt x).bi = s.bi := rfl
@[simp] theorem State.withAtt_att (s : State) (x : AttentionState) : (s.withAtt x).att = x := rfl
@[simp] theorem State.withAtt_localTime (s : State) (x : AttentionState) : (s.withAtt x).localTime = s.localTime := rfl
@[simp] theorem State.withAtt_resetHeld (s : State) (x : AttentionState) : (s.withAtt x).resetHeld = s.resetHeld := rfl
@[simp] theorem State.withAtt_pending (s : State) (x : AttentionState) : (s.withAtt x).pending = s.pending := rfl

/-- Putting a block back changes nothing. -/
@[simp] theorem State.withAtt_self (s : State) : s.withAtt s.att = s := rfl

/-- The later of two updates of a block stands. -/
@[simp] theorem State.withAtt_withAtt (s : State) (x y : AttentionState) :
    (s.withAtt x).withAtt y = s.withAtt y := rfl

/-! ### `State.withPending` -/

@[simp] theorem State.withPending_lc (s : State) (x : List Instr) : (s.withPending x).lc = s.lc := rfl
@[simp] theorem State.withPending_cmu (s : State) (x : List Instr) : (s.withPending x).cmu = s.cmu := rfl
@[simp] theorem State.withPending_ci (s : State) (x : List Instr) : (s.withPending x).ci = s.ci := rfl
@[simp] theorem State.withPending_rt (s : State) (x : List Instr) : (s.withPending x).rt = s.rt := rfl
@[simp] theorem State.withPending_sa (s : State) (x : List Instr) : (s.withPending x).sa = s.sa := rfl
@[simp] theorem State.withPending_sl (s : State) (x : List Instr) : (s.withPending x).sl = s.sl := rfl
@[simp] theorem State.withPending_fc (s : State) (x : List Instr) : (s.withPending x).fc = s.fc := rfl
@[simp] theorem State.withPending_ls (s : State) (x : List Instr) : (s.withPending x).ls = s.ls := rfl
@[simp] theorem State.withPending_bi (s : State) (x : List Instr) : (s.withPending x).bi = s.bi := rfl
@[simp] theorem State.withPending_att (s : State) (x : List Instr) : (s.withPending x).att = s.att := rfl
@[simp] theorem State.withPending_localTime (s : State) (x : List Instr) : (s.withPending x).localTime = s.localTime := rfl
@[simp] theorem State.withPending_resetHeld (s : State) (x : List Instr) : (s.withPending x).resetHeld = s.resetHeld := rfl
@[simp] theorem State.withPending_pending (s : State) (x : List Instr) : (s.withPending x).pending = x := rfl

/-- Putting a block back changes nothing. -/
@[simp] theorem State.withPending_self (s : State) : s.withPending s.pending = s := rfl

/-- The later of two updates of a block stands. -/
@[simp] theorem State.withPending_withPending (s : State) (x y : List Instr) :
    (s.withPending x).withPending y = s.withPending y := rfl

/-! ### `State.atPowerOn` -/

@[simp] theorem State.atPowerOn_resetHeld (r : Vector Bool 4) (b h : Bool) (q : List Instr) :
    (State.atPowerOn r b h q).resetHeld = h := rfl
@[simp] theorem State.atPowerOn_pending (r : Vector Bool 4) (b h : Bool) (q : List Instr) :
    (State.atPowerOn r b h q).pending = q := rfl
@[simp] theorem State.atPowerOn_lc (r : Vector Bool 4) (b h : Bool) (q : List Instr) :
    (State.atPowerOn r b h q).lc = linkAtPowerOn r b := rfl
@[simp] theorem State.atPowerOn_localTime (r : Vector Bool 4) (b h : Bool) (q : List Instr) :
    (State.atPowerOn r b h q).localTime = 0 := rfl

end Sys2Proof.Machine
end

