-- ==== Sys2Proof/Laws/Table.lean ====
section
/-! SUPPORT. What the runner table's operations can do, said once (chapter 4). -/

namespace Sys2Proof.Machine

/-! ### Lookup and victim choice -/

/-- A lookup finds a slot that holds the bib (R62). -/
theorem lookup_some {t : RunnerTable} {bib : Nat} {i : Slot} (h : t.lookup bib = some i) :
    ∃ r, t.slots[i] = some r ∧ r.bib = bib := by
  have := List.find?_some h
  split at this
  · rename_i r hr
    exact ⟨r, hr, by simpa using this⟩
  · cases this

/-- A lookup that finds nothing: no slot holds the bib (R62). -/
theorem lookup_none {t : RunnerTable} {bib : Nat} (h : t.lookup bib = none) (i : Slot) (r : Record)
    (hr : t.slots[i] = some r) : r.bib ≠ bib := by
  have := List.find?_eq_none.mp h i (List.mem_finRange i)
  simpa [hr] using this

/-- A victim is in the recency order and neither pinned nor held (R68). -/
theorem victim_some {t : RunnerTable} {i : Slot} (h : t.victim = some i) :
    i ∈ t.order ∧ t.isPinned i = false ∧ t.isHeld i = false := by
  refine ⟨by simpa using List.mem_of_find?_eq_some h, ?_⟩
  simpa using List.find?_some h

/-- Without a victim every slot of the recency order is pinned or held (R68). -/
theorem victim_none {t : RunnerTable} (h : t.victim = none) :
    ∀ i ∈ t.order, t.isPinned i = true ∨ t.isHeld i = true := by
  intro i hi
  have := List.find?_eq_none.mp h i (by simpa using hi)
  by_contra hc
  simp_all

/-! ### Updates -/

@[simp] theorem RunnerTable.put_order (t : RunnerTable) (i : Slot) (r : Record) :
    (t.put i r).order = t.order := rfl
@[simp] theorem RunnerTable.put_holds (t : RunnerTable) (i : Slot) (r : Record) :
    (t.put i r).holds = t.holds := rfl
@[simp] theorem RunnerTable.put_fills (t : RunnerTable) (i : Slot) (r : Record) :
    (t.put i r).fills = t.fills := rfl
@[simp] theorem RunnerTable.put_staleFills (t : RunnerTable) (i : Slot) (r : Record) :
    (t.put i r).staleFills = t.staleFills := rfl
@[simp] theorem RunnerTable.put_slots_self (t : RunnerTable) (i : Slot) (r : Record) :
    (t.put i r).slots[i] = some r := by
  simp [RunnerTable.put]

/-- A put leaves every other slot. -/
theorem RunnerTable.put_slots_ne (t : RunnerTable) {i j : Slot} (r : Record) (h : j ≠ i) :
    (t.put i r).slots[j] = t.slots[j] := by
  have : i.val ≠ j.val := fun e => h (Fin.ext e.symm)
  simp [RunnerTable.put, Vector.getElem_set_ne _ _ this]

@[simp] theorem RunnerTable.hold_slots (t : RunnerTable) (i : Slot) :
    (t.hold i).slots = t.slots := rfl
@[simp] theorem RunnerTable.hold_order (t : RunnerTable) (i : Slot) :
    (t.hold i).order = t.order := rfl
@[simp] theorem RunnerTable.hold_fills (t : RunnerTable) (i : Slot) :
    (t.hold i).fills = t.fills := rfl
@[simp] theorem RunnerTable.hold_staleFills (t : RunnerTable) (i : Slot) :
    (t.hold i).staleFills = t.staleFills := rfl
@[simp] theorem RunnerTable.release_slots (t : RunnerTable) (i : Slot) :
    (t.release i).slots = t.slots := rfl
@[simp] theorem RunnerTable.release_order (t : RunnerTable) (i : Slot) :
    (t.release i).order = t.order := rfl
@[simp] theorem RunnerTable.release_fills (t : RunnerTable) (i : Slot) :
    (t.release i).fills = t.fills := rfl
@[simp] theorem RunnerTable.release_staleFills (t : RunnerTable) (i : Slot) :
    (t.release i).staleFills = t.staleFills := rfl

/-- A hold adds 1 to one count (R66). -/
theorem RunnerTable.hold_holds (t : RunnerTable) (i j : Slot) :
    (t.hold i).holds[j] = if j = i then t.holds[j] + 1 else t.holds[j] := by
  by_cases h : j = i
  · subst h
    simp [RunnerTable.hold]
  · have : i.val ≠ j.val := fun e => h (Fin.ext e.symm)
    simp [RunnerTable.hold, Vector.getElem_set_ne _ _ this, h]

/-- A release takes 1 from one count (R66). -/
theorem RunnerTable.release_holds (t : RunnerTable) (i j : Slot) :
    (t.release i).holds[j] = if j = i then t.holds[j] - 1 else t.holds[j] := by
  by_cases h : j = i
  · subst h
    simp [RunnerTable.release]
  · have : i.val ≠ j.val := fun e => h (Fin.ext e.symm)
    simp [RunnerTable.release, Vector.getElem_set_ne _ _ this, h]

/-- An eviction frees one slot and withdraws the fill request of its bib; order, holds and the stale-fill
count stay (R69). -/
theorem RunnerTable.evict_eq (t : RunnerTable) (i : Slot) :
    t.evict i =
      { t with
        slots := t.slots.set i none
        fills := t.fills.filter fun e => (t.slots[i].map fun r => r.bib) ≠ some e.bib } := by
  unfold RunnerTable.evict
  split
  · rename_i r hr
    simp only [RunnerTable.withdraw, hr, Option.map_some]
    congr 1
    apply List.filter_congr
    intro e _
    simp [eq_comm]
  · rename_i hr
    have : t.slots.set i none = t.slots := by
      rw [← hr]
      exact Vector.set_getElem_self ..
    simp [hr, this]

/-- Everything an allocation can do: a victim takes the record after its eviction and moves to the front
(R70). -/
theorem allocate_some {t u : RunnerTable} {r : Record} {i : Slot}
    (h : t.allocate r = some (i, u)) :
    t.victim = some i ∧ u = ((t.evict i).put i r).toFront i := by
  unfold RunnerTable.allocate at h
  split at h
  · rename_i j hj
    cases h
    exact ⟨hj, rfl⟩
  · cases h

/-- An allocation fails only without a victim. -/
theorem allocate_none {t : RunnerTable} {r : Record} (h : t.allocate r = none) : t.victim = none := by
  unfold RunnerTable.allocate at h
  split at h
  · cases h
  · assumption

/-! ### Records -/

/-- A derivation keeps everything of a record but the wave in use, the derived values and STALE. -/
theorem derive_eq (waves : Vector WaveEntry 8) (point : PointSettings) (r : Record) :
    derive waves point r =
      { r with
        waveInUse := resolveWave waves r
        derived1 := (derive waves point r).derived1
        derived2 := (derive waves point r).derived2
        stale := false } := rfl

@[simp] theorem derive_bib (waves : Vector WaveEntry 8) (point : PointSettings) (r : Record) :
    (derive waves point r).bib = r.bib := rfl
@[simp] theorem derive_fill (waves : Vector WaveEntry 8) (point : PointSettings) (r : Record) :
    (derive waves point r).fill = r.fill := rfl
@[simp] theorem derive_pin (waves : Vector WaveEntry 8) (point : PointSettings) (r : Record) :
    (derive waves point r).pin = r.pin := rfl
@[simp] theorem derive_name (waves : Vector WaveEntry 8) (point : PointSettings) (r : Record) :
    (derive waves point r).name = r.name := rfl
@[simp] theorem derive_stale (waves : Vector WaveEntry 8) (point : PointSettings) (r : Record) :
    (derive waves point r).stale = false := rfl

end Sys2Proof.Machine
end

