-- ==== Sys2Proof/Laws/Board.lean ====
section
/-! SUPPORT. What the writers of the board image and the single steps of the list and feature controllers can
change, said once (chapters 7 to 9). -/

namespace Sys2Proof.Machine

/-! ### Writing the image -/

/-- Writing lines changes the image alone. -/
theorem writeLines_eq (s : State) (first : Nat) (rows : List (List Cell)) :
    s.writeLines first rows = s.withBi { s.bi with image := writeRows first rows s.bi.image } := rfl

/-- Writing lines that lie on the board keeps the number of lines. -/
theorem writeRows_length {first : Nat} {rows image : List (List Cell)}
    (h : first + rows.length ≤ image.length) : (writeRows first rows image).length = image.length := by
  simp [writeRows]
  omega

/-- A line after a write is one of the lines written, or a line from before. -/
theorem mem_writeRows {first : Nat} {rows image : List (List Cell)} {row : List Cell}
    (h : row ∈ writeRows first rows image) : row ∈ rows ∨ row ∈ image := by
  simp only [writeRows, List.mem_append] at h
  rcases h with (h | h) | h
  · exact .inr (List.mem_of_mem_take h)
  · exact .inl h
  · exact .inr (List.mem_of_mem_drop h)

/-- After a write that lies on the board a line is the one written there, else the one from before. -/
theorem writeRows_getElem? {first : Nat} {rows image : List (List Cell)}
    (h : first + rows.length ≤ image.length) (n : Nat) :
    (writeRows first rows image)[n]? =
      if first ≤ n ∧ n < first + rows.length then rows[n - first]? else image[n]? := by
  have ht : (image.take first).length = first := by simp; omega
  unfold writeRows
  split
  · rw [List.append_assoc, List.getElem?_append_right (by omega), ht,
      List.getElem?_append_left (by omega)]
  · rcases Nat.lt_or_ge n first with h' | h'
    · rw [List.append_assoc, List.getElem?_append_left (by omega), List.getElem?_take_of_lt h']
    · rw [List.getElem?_append_right (by simp; omega), List.getElem?_drop]
      congr 1
      simp
      omega

/-- The list line that shows the buffer on list line `i` is `i` (R139). -/
theorem listLine_of_bufferAt {top size i : Nat} (ht : top < size) (hi : i < size) :
    ((top + i) % size + size - top) % size = i := by
  rcases Nat.lt_or_ge (top + i) size with h | h
  · rw [Nat.mod_eq_of_lt h, show top + i + size - top = i + size by omega, Nat.add_mod_right,
      Nat.mod_eq_of_lt hi]
  · rw [Nat.mod_eq_sub_mod h, Nat.mod_eq_of_lt (by omega : top + i - size < size),
      Nat.mod_eq_of_lt (by omega)]
    omega

/-- Rendering the band changes the image alone. -/
theorem renderBand_eq (s : State) :
    renderBand s = s.withBi { s.bi with image := writeRows 0 (bandRows s) s.bi.image } := rfl

/-- Rendering the idle clock writes line 0 while the band is idle and open, else nothing. -/
theorem renderIdleClock_cases (s : State) :
    renderIdleClock s = s ∨
      (s.fc.shown = none ∧ 1 ≤ s.bi.bandHeight ∧
        renderIdleClock s = s.writeLines 0 [idleLine0 s]) := by
  unfold renderIdleClock
  split
  · rename_i h
    exact .inr ⟨by simpa using h.1, h.2, rfl⟩
  · exact .inl rfl

/-- Writing the list changes the image alone. -/
theorem writeList_eq (s : State) :
    writeList s =
      s.withBi { s.bi with image := writeRows s.bi.bandHeight (listRows s.ls) s.bi.image } := rfl

/-- The band has B lines. -/
theorem bandRows_length (s : State) : (bandRows s).length = s.bi.bandHeight := by
  unfold bandRows
  split
  · unfold idleRows
    split <;> simp_all
  · split
    · simp only [messageRows, List.length_append, List.length_map, List.length_take,
        List.length_replicate]
      omega
    · unfold featureRows
      split <;> simp_all

/-- The list has K lines. -/
theorem listRows_length (l : ListState) : (listRows l).length = l.buffers.length := by
  simp [listRows, ListState.size]

/-! ### The list controller's single steps -/

/-- A drop takes one entry from the queue, one hold from its slot, and counts (R147). -/
theorem dropHead_eq (e : QueueEntry) (rest : List QueueEntry) (s : State) :
    dropHead e rest s =
      (s.withRt (s.rt.release e.slot)).withLs
        { s.ls with queue := rest, drops := min 65535 (s.ls.drops + 1) } := rfl

/-- An insertion changes the list controller, the hold counts and the image alone (R145). -/
theorem insertHead_frame (e : QueueEntry) (rest : List QueueEntry) (s : State) :
    insertHead e rest s =
      ((s.withRt { s.rt with holds := (insertHead e rest s).rt.holds }).withLs
        (insertHead e rest s).ls).withBi
        { s.bi with image := (insertHead e rest s).bi.image } := by
  simp only [insertHead, releaseLine]
  split <;> rfl

/-- An emptied buffer changes the list controller, the hold counts and the image alone (R149). -/
theorem emptyBuffer_frame (j : Nat) (s : State) :
    emptyBuffer j s =
      ((s.withRt { s.rt with holds := (emptyBuffer j s).rt.holds }).withLs
        { s.ls with buffers := s.ls.buffers.set j none }).withBi
        { s.bi with image := (emptyBuffer j s).bi.image } := by
  simp only [emptyBuffer, releaseLine]
  split <;> rfl

/-- A buffer rendered again changes its own cells and the image alone (R141). -/
theorem rerenderBuffer_frame (j : Nat) (line : ListLine) (pass : PassNo) (s : State) :
    rerenderBuffer j line pass s =
      (s.withLs
        { s.ls with
          buffers := s.ls.buffers.set j
            (some (renderedLine s.rt line.slot line.bib pass line.shownAt)) }).withBi
        { s.bi with image := (rerenderBuffer j line pass s).bi.image } := rfl

/-- The first buffer that shows a slot does show it (R139). -/
theorem lineOf_some {l : ListState} {i : Slot} {j : Nat} (h : l.lineOf i = some j) :
    ∃ line, l.buffers[j]? = some (some line) ∧ line.slot = i := by
  unfold ListState.lineOf at h
  rw [List.findIdx?_eq_some_iff_getElem] at h
  obtain ⟨hj, hp, -⟩ := h
  cases hb : l.buffers[j] with
  | none => simp [hb] at hp
  | some line => exact ⟨line, by simp [List.getElem?_eq_getElem hj, hb], by simpa [hb] using hp⟩

/-- No buffer shows a slot that is on no line (R139). -/
theorem lineOf_none {l : ListState} {i : Slot} (h : l.lineOf i = none) (line : ListLine)
    (hl : some line ∈ l.buffers) : line.slot ≠ i := by
  have := List.findIdx?_eq_none_iff.mp h _ hl
  simpa using this

/-! ### The feature controller's single steps -/

/-- Giving a message a state changes the messages alone (R122). -/
theorem markMessage_eq (f : FeatureState) (m : Fin 8) (st : MessageState) :
    f.markMessage m st = { f with messages := (f.markMessage m st).messages } := by
  unfold FeatureState.markMessage
  split <;> rfl

/-- A message's new state is the one given, its other fields stay, and so do the other messages. -/
theorem markMessage_messages (f : FeatureState) (m n : Fin 8) (st : MessageState) :
    (f.markMessage m st).messages[n] =
      if n = m then f.messages[n].map fun msg => { msg with state := st } else f.messages[n] := by
  unfold FeatureState.markMessage
  split
  · rename_i msg hm
    by_cases h : n = m
    · subst h
      simp [hm]
    · have : m.val ≠ n.val := fun e => h (Fin.ext e.symm)
      simp [Vector.getElem_set_ne _ _ this, h]
  · rename_i hm
    by_cases h : n = m
    · subst h
      simp [hm]
    · simp [h]

/-- Showing a candidate changes the shown feature, the queue or the message it comes from alone (R127). -/
theorem showCandidate_frame (f : FeatureState) (k : Level) (c : Candidate) :
    f.showCandidate k c =
      { f with
        queues := (f.showCandidate k c).queues
        messages := (f.showCandidate k c).messages
        shown := (f.showCandidate k c).shown } := by
  cases c with
  | message m =>
    have := markMessage_eq f m .shown
    simp only [FeatureState.showCandidate]
    rw [this]
  | entry e => rfl

/-- The queue after a drop of the oldest entry has room for one more (R120). -/
theorem dropOldest_cases (k : Level) (s : State) :
    (s.fc.queues[k].length < 4 ∧ dropOldest k s = s) ∨
      ∃ e rest, s.fc.queues[k] = e :: rest ∧ 4 ≤ s.fc.queues[k].length ∧
        dropOldest k s =
          (s.withRt (s.rt.release e.slot)).withFc
            { s.fc with
              queues := s.fc.queues.set k rest, drops := min 65535 (s.fc.drops + 1) } := by
  unfold dropOldest
  split
  · rename_i e rest hq
    split
    · rename_i h
      exact .inr ⟨e, rest, hq, by simpa using h, rfl⟩
    · rename_i h
      exact .inl ⟨by simpa using h, rfl⟩
  · rename_i hq
    exact .inl ⟨by simp [hq], rfl⟩

/-- A resumption changes the shown feature, the stack and the resumed message alone (R127). -/
theorem resume_frame (f : FeatureState) (g : Feature) (rest : List Feature) :
    f.resume g rest =
      { f with messages := (f.resume g rest).messages, shown := some g, stack := rest } := by
  cases hr : g.ref with
  | message m =>
    have := markMessage_eq f m .shown
    simp only [FeatureState.resume, FeatureState.markRef, hr]
    rw [this]
  | runner e => simp [FeatureState.resume, FeatureState.markRef, hr]

end Sys2Proof.Machine
end

