-- ==== Sys2Proof/Laws/Link.lean ====
section
/-! SUPPORT. What the path of a packet, an event, a step, the error records and the arbiter's operations can
do, said once (chapter 1). -/

namespace Sys2Proof.Machine

/-! ### Steps, events, packets -/

/-- Everything a step can do. -/
theorem step_cases {s t : State} (h : step s = .next t) :
    (∃ c rest, s.pending = c :: rest ∧ exec c (s.withPending rest) = .next t) ∨
      (s.pending = [] ∧ (∃ e, idleEvent s = some e ∧ exec e s = .next t)) ∨
      (s.pending = [] ∧ idleEvent s = none ∧ t = passMillisecond s) := by
  unfold step at h
  split at h
  · rename_i hp
    unfold idle at h
    split at h
    · exact .inr (.inl ⟨hp, _, by assumption, h⟩)
    · cases h
      exact .inr (.inr ⟨hp, by assumption, rfl⟩)
  · exact .inl ⟨_, _, by assumption, h⟩

/-- Everything an event can do. -/
theorem event_cases {s t : State} {f : State → State} (h : event s f = .next t) :
    (s.resetHeld = true ∧ t = s) ∨ (s.resetHeld = false ∧ t = f s) := by
  unfold event at h
  split at h
  · cases h
    exact .inl ⟨by assumption, rfl⟩
  · cases h
    rename_i hr
    exact .inr ⟨by simpa using hr, rfl⟩

/-- An event happens while RESET is not asserted. -/
@[simp] theorem event_of_running {s : State} (f : State → State) (h : s.resetHeld = false) :
    event s f = .next (f s) := by
  simp [event, h]

/-- An event does not happen while RESET is asserted. -/
@[simp] theorem event_of_held {s : State} (f : State → State) (h : s.resetHeld = true) :
    event s f = .next s := by
  simp [event, h]

/-- Everything the path of a packet can do: ignore it, record a failed check, or hand it to its owner. -/
theorem receive_cases {k : Kind} {p : Packet} {owner : Channel → State → Answer} {s t : State}
    (h : receive k p owner s = .next t) :
    (s.hearing = none ∧ t = s) ∨
      (∃ c e, s.hearing = some c ∧ packetError (kindCode k) p c = some e ∧
        t = packetErrorEffect e (kindCode k) c s) ∨
      (∃ c r, s.hearing = some c ∧ packetError (kindCode k) p c = none ∧
        requestRefusal k p c s = some r ∧ t = s.refuse c (kindCode k) r) ∨
      ∃ c, Delivered k c p s ∧
        (owner c s = .done t ∨
          ∃ r u, owner c s = .refused r u ∧ t = u.refuse c (kindCode k) r) := by
  unfold receive at h
  split at h
  · cases h
    exact .inl ⟨by assumption, rfl⟩
  · rename_i c hc
    split at h
    · rename_i e he
      cases h
      exact .inr (.inl ⟨c, e, hc, he, rfl⟩)
    · rename_i he
      split at h
      · rename_i r hr
        cases h
        exact .inr (.inr (.inl ⟨c, r, hc, he, hr, rfl⟩))
      · rename_i hr
        refine .inr (.inr (.inr ⟨c, ⟨hc, he, hr⟩, ?_⟩))
        split at h
        · rename_i u hu
          cases h
          exact .inl hu
        · rename_i r u hu
          cases h
          exact .inr ⟨r, u, hu, rfl⟩
        · cases h

/-- A delivered packet is what its owner makes of it. -/
theorem receive_delivered {k : Kind} {p : Packet} {c : Channel} {s : State}
    (owner : Channel → State → Answer) (h : Delivered k c p s) :
    receive k p owner s =
      match owner c s with
      | .done t => .next t
      | .refused reason t => .next (t.refuse c (kindCode k) reason)
      | .stop f => .fault f := by
  obtain ⟨h1, h2, h3⟩ := h
  cases ho : owner c s <;> simp [receive, h1, h2, h3, ho]

/-- A packet outside a heard burst changes nothing. -/
theorem receive_unheard {k : Kind} {p : Packet} {s : State} (owner : Channel → State → Answer)
    (h : s.hearing = none) : receive k p owner s = .next s := by
  simp [receive, h]

/-- Nothing is heard while RESET is asserted. -/
@[simp] theorem hearing_of_held {s : State} (h : s.resetHeld = true) : s.hearing = none := by
  simp [State.hearing, h]

/-- What a heard channel says of the line. -/
theorem hearing_some {s : State} {c : Channel} (h : s.hearing = some c) :
    s.resetHeld = false ∧ s.lc.burst = some (.taken c false) := by
  unfold State.hearing at h
  split at h
  · cases h
  · rename_i hr
    refine ⟨by simpa using hr, ?_⟩
    split at h <;> simp_all

/-! ### Error records and reply queues -/

/-- A change of an error record changes the error records alone. -/
theorem updError_eq (s : State) (c : Channel) (f : ErrorRecord → ErrorRecord) :
    s.updError c f = s.withLc { s.lc with errors := s.lc.errors.set c (f s.lc.errors[c]) } := rfl

/-- A refusal changes the error records alone. -/
theorem refuse_eq (s : State) (c : Channel) (kind : Byte) (reason : Reason) :
    s.refuse c kind reason =
      s.withLc { s.lc with errors := s.lc.errors.set c (s.lc.errors[c].refusal kind reason) } := rfl

/-- A failed check of a packet changes the error records, and the burst after HEADER_BAD, alone. -/
theorem packetErrorEffect_onlyLink (e : PacketError) (kind : Byte) (c : Channel) (s : State) :
    packetErrorEffect e kind c s =
      s.withLc
        { s.lc with
          burst := if e = .headerBad then some (.taken c true) else s.lc.burst
          errors := (packetErrorEffect e kind c s).lc.errors } := by
  cases e <;> rfl

/-- A reply joins the tail of one queue and changes nothing else. -/
theorem enqueueReply_eq (s : State) (c : Channel) (r : Reply) :
    s.enqueueReply c r =
      s.withLc { s.lc with replies := s.lc.replies.set c (s.lc.replies[c] ++ [r]) } := rfl

/-! ### The arbiter -/

/-- A grant decision changes the grant and the last granted channel alone, and leaves IDLE, PARKED or
OFFERED. -/
theorem grantDecision_eq (now : Nat) (l : LinkState) :
    grantDecision now l =
        { l with grant := (grantDecision now l).grant, lastGranted := (grantDecision now l).lastGranted } ∧
      ((grantDecision now l).grant = .idle ∨
        (∃ p, (grantDecision now l).grant = .parked p ∧ l.park = some p) ∨
          ∃ c, (grantDecision now l).grant = .offered c now ∧ l.requestLine[c] = true) := by
  unfold grantDecision
  split
  · exact ⟨rfl, .inl rfl⟩
  · split
    · rename_i c hc
      exact ⟨rfl, .inr (.inr ⟨c, rfl, by simpa [winner] using List.find?_some hc⟩)⟩
    · split
      · rename_i p hp
        exact ⟨rfl, .inr (.inl ⟨p, rfl, hp⟩)⟩
      · exact ⟨rfl, .inl rfl⟩

/-- Entering WITHDRAWING: it lasts while the line is busy, else a grant decision follows at once. -/
theorem withdraw_eq (now : Nat) (c : Channel) (grace : Option Nat) (l : LinkState) :
    withdraw now c grace l =
      if l.busy then { l with grant := .withdrawing c grace, holdFrom := none }
      else grantDecision now { l with grant := .withdrawing c grace, holdFrom := none } := rfl

/-- The withdrawal test withdraws, or leaves the link as it is. -/
theorem withdrawalTest_eq (now : Nat) (l : LinkState) :
    withdrawalTest now l = l ∨
      ∃ c from_, l.grant = .held c from_ ∧ mustWithdraw now l = true ∧
        withdrawalTest now l = withdraw now c (some now) l := by
  unfold withdrawalTest
  split
  · rename_i c from_ hg
    split
    · exact .inr ⟨c, from_, hg, by assumption, rfl⟩
    · exact .inl rfl
  all_goals exact .inl rfl

/-- The end of an exchange withdraws, or leaves the link as it is. -/
theorem endExchange_eq (now : Nat) (l : LinkState) :
    endExchange now l = l ∨
      ∃ c from_, l.grant = .held c from_ ∧ l.requestLine[c] = false ∧
        endExchange now l = withdraw now c none l := by
  unfold endExchange
  split
  · rename_i c from_ hg
    split
    · exact .inl rfl
    · rename_i hr
      exact .inr ⟨c, from_, hg, by simpa using hr, rfl⟩
  all_goals exact .inl rfl

/-- A burst open waits exactly when it is the command at the front of the queue (log 20). -/
theorem State.openWaits_iff (s : State) : s.openWaits = true ↔ s.pending.head? = some .openPattern := by
  unfold State.openWaits
  cases s.pending <;> simp

end Sys2Proof.Machine
end

