-- ==== Sys2Proof/Tests/Slice0.lean ====
section
/-! SUPPORT. Tests: the checks of WellFormed, the worked examples and tables of the spec, and for every
statement with hypotheses a concrete state and operands that meet them. -/

namespace Sys2Proof.Tests

open Sys2Proof Sys2Proof.Machine

/-! ### Helpers -/

/-- A packet of a kind as its sender builds it, with both checks right. -/
def sent (k : Kind) (c : Channel) (body : Body) : Packet :=
  let p : Packet := { asking := kindAsking k, reserved := 0#4, channel := c, headerCheck := 0#8, body }
  { p with headerCheck := crc8 (headerBytes (packetHeader (kindCode k) p)) }

/-- A short request. -/
def short (k : Kind) (c : Channel) (param : Nat) : Packet := sent k c (.short (BitVec.ofNat 16 param))

/-- A long request. -/
def long (k : Kind) (c : Channel) (payload : List Byte) : Packet := sent k c (.long payload (crc16 payload))

/-- Channel `c` holds the line, its request raised, with a burst open. -/
def heldBy (c : Channel) : State :=
  State.reset.withLc
    { State.reset.lc with
      requestLine := (Vector.replicate 4 false).set c true, masterBusy := true, grant := .held c 0,
      burst := some (.taken c false) }

/-- The state a command leaves; the state before it when the model stops. -/
def after (i : Instr) (s : State) : State :=
  match exec i s with
  | .next t => t
  | .fault _ => s
  | .refused _ => s

/-- The clock replaced. -/
def clocked (value : Nat) (state : ClockState) (s : State) : State :=
  s.withCmu { s.cmu with clock := { value, state } }

/-- A record of bib 100, FILLED, with nothing else. -/
def plain : Record := Record.fresh 100 .filled

/-- Bib 100 in slot 5. -/
def withRunner (r : Record) (s : State) : State := s.withRt (s.rt.put 5 r)

/-- A channel permitted to send a kind. -/
def senderOf : Kind → Channel
  | .crossingReport | .timedCrossingReport => 0
  | .boardLayout | .displayMode | .brightness | .dutyTable | .panelWindow | .scanPeriod
  | .listTiming | .readLines | .arbitrationSetup => 3
  | _ => 2

/-- A request of each kind with every field 0. -/
def blank (k : Kind) : Packet :=
  match kindLength k [] with
  | none => short k (senderOf k) 0
  | some n => long k (senderOf k) (List.replicate n 0#8)

/-! ### WellFormed: each check refuses an ill-formed command -/

theorem test_wf_accepts_a_good_request :
    (Instr.status (short .status 1 0)).wf = true := by decide +kernel

theorem test_wf_refuses_a_wrong_header_check :
    (Instr.status { short .status 1 0 with headerCheck := 0#8 }).wf = false := by decide +kernel

theorem test_wf_refuses_another_rows_kind_code :
    (Instr.hold (short .status 1 0)).wf = false := by decide +kernel

theorem test_wf_refuses_a_payload_above_512 :
    packetWf 0x12#8 (long .postMessage 2 (List.replicate 513 0#8)) = false := by decide +kernel

theorem test_wf_refuses_a_good_header_as_bad :
    (Instr.headerBad (packetHeader 0x20#8 (short .status 1 0))).wf = false := by decide +kernel

theorem test_wf_refuses_a_known_kind_as_unknown :
    (Instr.unknownKind 0x20#8 (short .status 1 0)).wf = false := by decide +kernel

theorem test_wf_refuses_a_whole_packet_as_tail :
    (Instr.cut [0x20#8, 0x01#8, 0#8, 0#8, crc8 [0x20#8, 0x01#8, 0#8, 0#8]]).wf = false := by decide +kernel

/-! ### The table gives no row any bits -/

theorem test_no_word_spells_a_command : decodeTableWord 32 0x20 = none := rfl

theorem test_fetch_word_leaves_the_queue : State.reset.withFetchWord 32 0x20 = State.reset := rfl

/-! ### Formats -/

/-- CRC-8 with generator 0x07 of the ASCII digits 1 to 9 is 0xF4, the known check value of that CRC; R176. -/
theorem test_header_check :
    crc8 [0x31#8, 0x32#8, 0x33#8, 0x34#8, 0x35#8, 0x36#8, 0x37#8, 0x38#8, 0x39#8] = 0xF4#8 := by
  simp [crc8, crc8Shift, BitVec.msb_eq_decide]

/-- CRC-16 with generator 0x8005 from 0xFFFF of the ASCII digits 1 to 9 is 0xAEE7, the known check value of that CRC; R176. -/
theorem test_payload_check :
    crc16 [0x31#8, 0x32#8, 0x33#8, 0x34#8, 0x35#8, 0x36#8, 0x37#8, 0x38#8, 0x39#8] = 0xAEE7#16 := by
  simp [crc16, crc16Shift, BitVec.msb_eq_decide]

/-! ### Worked examples of the spec -/

/-- 02 section 2.1, trims at the limits: 1,000,000 with -300 and -800, 200 with -500, 16,777,000 with
+500. -/
theorem test_trims_at_the_limits :
    clockTrimmed 0 1000000 (-300) = { value := 999700, state := .running 0 } ∧
      clockTrimmed 0 1000000 (-800) = { value := 999500, state := .running 0 } ∧
      clockTrimmed 0 200 (-500) = { value := 0, state := .running 0 } ∧
      clockTrimmed 0 16777000 500 = { value := 16777215, state := .full } := by decide

/-- 02 section 2.1: the second line again, as a command. -/
theorem test_clock_trim_command :
    (after (.clockTrim (short .clockTrim 2 (65536 - 800)))
        (clocked 1000000 (.running 0) (heldBy 2))).cmu.clock =
      { value := 999500, state := .running 0 } := by decide +kernel

/-- 02 section 2.1: FULL, trim -100 is refused CLOCK_STOPPED. -/
theorem test_trim_in_full_is_refused :
    (after (.clockTrim (short .clockTrim 2 (65536 - 100)))
        (clocked 16777215 .full (heldBy 2))).lc.errors[(2 : Channel)].first =
      some (0x05#8, .clockStopped) := by decide +kernel

/-- 02 section 2.1: RUNNING 500,000, Clock Set 600,000 is refused CLOCK_RUNNING. -/
theorem test_clock_set_while_running_is_refused :
    (after (.clockSet (long .clockSet 2 (be32 600000)))
        (clocked 500000 (.running 0) (heldBy 2))).lc.errors[(2 : Channel)].first =
      some (0x03#8, .clockRunning) := by decide +kernel

/-- The point of 03 section 3.11. -/
def twoPassPoint : PointSettings :=
  { courseLength := 42195, d1 := 25000, d2 := 38000, gap := 120000, window := 600 }

/-- Bib 2741 of 03 section 3.11 with given passes. -/
def bib2741 (pass1 pass2 : Option Pass) : Record :=
  { Record.fresh 2741 .filled with
    fillWave := some 2, upstream := some (20000, 744210), pass1, pass2 }

/-- A pass of bib 2741. -/
def passAt (tick : Nat) : Option Pass := some { tick, source := .markedA, count := 1 }

/-- 03 section 3.11, steps a to f. -/
theorem test_two_pass_point :
    classify twoPassPoint (bib2741 none none) 1020537 = .pass1 ∧
      classify twoPassPoint (bib2741 (passAt 1020537) none) 1020560 = .duplicate ∧
      classify twoPassPoint (bib2741 (passAt 1020537) none) 1080000 = .extra ∧
      classify twoPassPoint (bib2741 (passAt 1020537) none) 1720000 = .pass2 ∧
      classify twoPassPoint (bib2741 (passAt 1020537) (passAt 1720000)) 1719820 = .revision2 ∧
      classify twoPassPoint (bib2741 (passAt 1020537) (passAt 1719820)) 1020700 = .extra := by
  decide

/-- The wave table of 05 section 5.3: wave 2 fired at 90,000. -/
def gunAt90000 : Vector WaveEntry 8 :=
  (Vector.replicate 8 { range := none, gun := none }).set 2 { range := none, gun := some 90000 }

/-- For `WaveTableRequests` and `ClockStopResult`: a gun that changes for the clock wave and for another wave, a
clock STOPPED and one that is not. -/
theorem test_idle_clock_occasions :
    State.reset.cmu.waves[(0 : Wave)].gun ≠ some 90000 ∧ (0 : Wave) = State.reset.bi.clockWave ∧
      (2 : Wave) ≠ State.reset.bi.clockWave ∧ State.reset.cmu.clock.state = .stopped ∧
      (clocked 500 (.running 0) State.reset).cmu.clock.state ≠ .stopped := by decide

/-- 05 section 5.3, pass 1: race time, pace and projection. -/
theorem test_worked_case_pass_1 :
    let d := (derive gunAt90000 twoPassPoint (bib2741 (passAt 1020537) none)).derived1
    d.raceTime = some 930537 ∧ d.pace = some 37265 ∧ d.projection = some 1571316 := by decide

/-- 05 section 5.3, pass 1 as shown: 2:35:06 and 6:13. -/
theorem test_worked_case_shown :
    timeText (some 930537) =
        [0x32#8, 0x3A#8, 0x33#8, 0x35#8, 0x3A#8, 0x30#8, 0x36#8] ∧
      paceText (some 37265) = [0x20#8, 0x36#8, 0x3A#8, 0x31#8, 0x33#8] := by decide

/-- The log of 06 section 6.3: entries 65,534 to 2, next number 3. -/
def logAcrossTheWrap : SplitLog :=
  { entries := [65534, 65535, 0, 1, 2].map fun n =>
      { number := BitVec.ofNat 16 n, bib := 100, reader := .a, timed := false, tick := 0,
        cls := .pass1, wave := none, gapBefore := false }
    next := 3#16, refused := 0, gapArmed := false }

/-- 06 section 6.3, Collect at the edges. -/
theorem test_collect_at_the_edges :
    (logAcrossTheWrap.collect 65535#16 2).map (fun e => e.number) = [65535#16, 0#16] ∧
      logAcrossTheWrap.collect 3#16 32 = [] ∧ logAcrossTheWrap.collect 65533#16 32 = [] := by
  decide

/-- 01 section 1.5, withdrawal under a hold: the decision at 193 takes channel 3, and the lapse at 213
passes the line to channel 0. -/
theorem test_rotating_decision :
    let l := { (heldBy 2).lc with
      requestLine := ((Vector.replicate 4 false).set 0 true).set 3 true, masterBusy := false,
      lastGranted := 2 }
    (grantDecision 193 l).grant = .offered 3 193 ∧
      (grantDecision 213 { l with lastGranted := 3 }).grant = .offered 0 213 := by decide

/-- R65: the first allocation after power-on takes slot 0. -/
theorem test_first_allocation_takes_slot_0 :
    (RunnerTable.empty.allocate plain).map (fun x => x.1) = some 0 := by decide +kernel

/-! ### Witnesses: the queue, reset and local time

Each theorem below meets all the hypotheses of the statement it names, in a state other than reset. -/

/-- For `StepTakesFrontCommand` and `CommandsLeaveQueueAndTime`. -/
theorem test_a_queued_command_is_taken :
    ((heldBy 2).withPending [.frameSent, .busyRelease]).pending = .frameSent :: [.busyRelease] := rfl

theorem test_a_command_leaves_a_state : ∃ t, exec (.requestRaised 1) State.reset = .next t := ⟨_, rfl⟩

/-- For `PowerOnStartsEveryBlock`: channel 1 asks, or nobody. -/
theorem test_power_on_finds_a_requester :
    (heldBy 1).lc.requestLine[(1 : Channel)] = true ∧
      (∀ d : Channel, d < 1 → (heldBy 1).lc.requestLine[d] = false) ∧
      (State.reset.lc.masterBusy = false ∧ ∀ d : Channel, State.reset.lc.requestLine[d] = false) := by
  decide

/-- RESET is asserted, with a request line raised and the busy line driven. -/
def inReset : State := State.atPowerOn (heldBy 2).lc.requestLine true true [.requestRaised 1]

/-- For `ResetHeldStopsTheDevice` and `EveryStepKeepsResetHolds`. -/
theorem test_a_state_in_reset :
    inReset.resetHeld = true ∧ ResetHolds inReset ∧ ∃ t, step inReset = .next t :=
  ⟨rfl, fun _ => rfl, _, rfl⟩

/-- For `LocalTimeConventions`: an event is due, none is due, and lines at both levels. -/
theorem test_local_time_cases :
    (∃ rest, dueEvents (State.reset.withSa { position := some 0 }) = [] ++ some .passVisit :: rest) ∧
      (∀ x ∈ dueEvents State.reset, x = none) ∧
      (heldBy 1).lc.requestLine[(1 : Channel)] = true ∧ State.reset.hearing = none := by
  refine ⟨⟨_, rfl⟩, ?_, ?_, ?_⟩ <;> decide

/-! ### Witnesses: the station link -/

/-- For every statement about a request: with channel 2 (3, or 0) holding the line, the request of each kind
reaches its owner block. -/
theorem test_every_request_reaches_its_owner :
    ∀ k ∈ allKinds, Delivered k (senderOf k) (blank k) (heldBy (senderOf k)) := by decide +kernel

/-- 11.2, 5.6: the race control's Clock Set of tick 0x00012345, field by field (`PacketsArePassedOrDropped`). -/
theorem test_fields_of_a_payload :
    let l : List Byte := [0x00#8, 0x01#8, 0x23#8, 0x45#8]
    byteAt l 1 = 1 ∧ halfAt l 1 = 0x123 ∧ longAt l 0 = 0x12345 ∧
      formOk .clockSet (.long l 0#16) = true ∧ formOk .clockSet (.short 0#16) = false := by decide

/-- A packet of a wrong header check, a wrong channel, a channel not permitted, a wrong payload check and a
wrong length, in that order (`PacketsArePassedOrDropped`). -/
theorem test_packets_that_fail_each_check :
    headerOk (packetHeader 0x20#8 { short .status 2 0 with headerCheck := 0#8 }) = false ∧
      (short .status 1 0).channel ≠ 2 ∧ kindPermitted .crossingReport 2 = false ∧
      payloadOk (Body.long [0#8] 0#16) = false ∧ formOk .status (long .status 2 []).body = false ∧
      headerOk (packetHeader 0x20#8 (long .status 2 [])) = true := by decide +kernel

/-- A full reply queue (`PacketsArePassedOrDropped`). -/
theorem test_a_full_reply_queue :
    let s := (heldBy 2).withReplies 2 (List.replicate 4 (.fillList 0 []))
    s.hearing = some 2 ∧ 4 ≤ s.lc.replies[(2 : Channel)].length := by decide +kernel

/-- For `LinkErrorEvents`: the first undefined code, 0x25, in a good header, and a bad header. -/
theorem test_link_error_events_arise :
    (heldBy 2).hearing = some 2 ∧ kindOfCode 0x25#8 = none ∧
      headerOk { kind := 0x25#8, control := 0x02#8, param := 0#16,
                 check := crc8 [0x25#8, 0x02#8, 0#8, 0#8] } = true ∧
      headerOk { kind := 0x20#8, control := 0x02#8, param := 0#16, check := 0#8 } = false := by
  decide +kernel

/-- For `LinkErrorEvents`: the holder, who still asks, sends a bad header with no reply burst on the line. -/
theorem test_a_bad_header_from_the_holder :
    ((heldBy 2).hearing = some 2 ∧ (heldBy 2).lc.replyBurst = none ∧ (heldBy 2).lc.grant = .held 2 0 ∧
      (heldBy 2).lc.requestLine[(2 : Channel)] = true ∧
      headerOk { kind := 0x20#8, control := 0x02#8, param := 0#16, check := 0#8 } = false) ∧
      ∃ t, exec (.headerBad { kind := 0x20#8, control := 0x02#8, param := 0#16, check := 0#8 })
        (heldBy 2) = .next t := by
  have bad : headerOk { kind := 0x20#8, control := 0x02#8, param := 0#16, check := 0#8 } = false := by
    decide +kernel
  refine ⟨⟨rfl, rfl, rfl, rfl, bad⟩, ?_⟩
  simp [exec, execHeaderBad, bad]
  split <;> exact ⟨_, rfl⟩

/-- For `TurnaroundResult`: a Lines reply of 10 lines and one of 11, and a log without a DUPLICATE. -/
theorem test_reply_cases :
    (List.replicate 10 blankLine).length ≤ 10 ∧ 10 < (List.replicate 11 blankLine).length ∧
      ∀ e ∈ logAcrossTheWrap.entries, e.cls ≠ .duplicate := by decide

/-- 11.7: the complete short packet 0x04 0x02 0x00 0x00 0x8E. -/
theorem test_complete_packet : sentShort 0x04 2 0 = [0x04#8, 0x02#8, 0x00#8, 0x00#8, 0x8E#8] := by
  decide +kernel

/-- For `BurstsOpen`: no burst, and a burst on the line. -/
theorem test_bursts_can_open :
    State.reset.lc.burst = none ∧ State.reset.lc.replyBurst = none ∧ (heldBy 2).lc.burst.isSome := by
  decide

/-- For `BurstsEndUnanswered`: headers that fail steps 1, 2 and 3 of R5, and one that passes them. -/
theorem test_header_checks :
    headerError { kind := 0x20#8, control := 0x02#8, param := 0#16, check := 0#8 } 2 = some .headerBad ∧
      headerError (packetHeader 0x20#8 (short .status 1 0)) 2 = some .wrongChannel ∧
      headerError { kind := 0x25#8, control := 0x02#8, param := 0#16,
                    check := crc8 [0x25#8, 0x02#8, 0#8, 0#8] } 2 = some .unknownKind ∧
      kindOfCode 0x20#8 = some .status ∧
      headerError (packetHeader 0x20#8 (short .status 2 0)) 2 = none := by decide +kernel

/-- A burst of a given state on the line of channel 2. -/
def withBurst (b : Burst) : State := (heldBy 2).withLc { (heldBy 2).lc with burst := some b }

/-- For `BurstsEndUnanswered` and `TurnaroundResult`: a burst with its framing, one without, one after the
grace and one unheard; a tail of four bytes and one of five; a reply burst being sent. -/
theorem test_bursts_that_end :
    (heldBy 2).lc.burst = some (.taken 2 false) ∧
      (withBurst (.taken 2 true)).lc.burst = some (.taken 2 true) ∧
      (withBurst (.afterGrace 2)).lc.burst = some (.afterGrace 2) ∧
      (withBurst .unheard).lc.burst = some .unheard ∧
      (List.replicate 4 (0#8 : Byte)).length < 5 ∧ 5 ≤ (List.replicate 5 (0#8 : Byte)).length ∧
      (after (.turnClose []) (heldBy 2)).lc.replyBurst =
        some { channel := 2, packets := [nothingPacket 2] } := by decide +kernel

/-- For `GrantDecisionPicksTheWinner`: the busy line asserted; no requester; FIXED; ROTATING with the last
granted channel, 2, alone asking, which comes last in the order. -/
theorem test_grant_decision_cases :
    let l := { (heldBy 2).lc with masterBusy := false, lastGranted := 2 }
    (heldBy 2).lc.busy = true ∧ l.busy = false ∧
      (State.reset.lc.busy = false ∧ ∀ c : Channel, State.reset.lc.requestLine[c] = false) ∧
      (l.requestLine[(2 : Channel)] = true ∧ ∀ d : Channel, d < 2 → l.requestLine[d] = false) ∧
      (l.mode = .rotating ∧ l.requestLine[l.lastGranted + 1 + (3 : Fin 4)] = true ∧
        ∀ m : Fin 4, m < 3 → l.requestLine[l.lastGranted + 1 + m] = false) := by decide

/-- For `RequestLinesMoveTheArbiter` and `GrantsLapseAndPass`. -/
theorem test_request_lines_at_both_levels :
    (heldBy 2).resetHeld = false ∧ (heldBy 2).lc.requestLine[(1 : Channel)] = false ∧
      (heldBy 2).lc.requestLine[(2 : Channel)] = true ∧
      (after (.normalClose []) (heldBy 2)).lc.masterBusy = true ∧
      (after (.normalClose []) (heldBy 2)).lc.burst = none ∧
      (after (.requestRaised 1) State.reset).lc.grant = .offered 1 0 := by decide +kernel

/-- Channel 1's offer of local time 0 at 20 ms, with commands waiting. -/
def offered (waiting : List Instr) : State :=
  { (after (.requestRaised 1) State.reset).withPending waiting with localTime := 20 }

/-- For `GrantsLapseAndPass`: a burst open and the offer timer's expiry, in both orders, and an expiry alone. -/
theorem test_offer_limit_reached :
    (∀ w : List Instr, (offered w).pending = w ∧ (offered w).resetHeld = false ∧
      (offered w).lc.grant = .offered 1 0 ∧ (offered w).lc.burst = none ∧
      (offered w).lc.replyBurst = none ∧ 0 + 20 ≤ (offered w).localTime) :=
  fun _ => ⟨rfl, rfl, rfl, rfl, rfl, Nat.le_refl 20⟩

/-- R15: with the burst open right behind the expiry the burst is ignored as one after the grace; with nothing
behind it the line is free and the decision offers the line again (R19, log 20). -/
theorem test_offer_lapses :
    (after .offerTimerExpiry (offered [.openPattern])).lc.grant = .withdrawing 1 none ∧
      (after .openPattern (after .offerTimerExpiry (offered [.openPattern]))).lc.burst =
        some (.afterGrace 1) ∧
      (after .offerTimerExpiry (offered [])).lc.grant = .offered 1 20 := by decide +kernel

/-- Channel 2 in HELD since local time 0 at local time `now`, with channel 1 asking too. -/
def contested (now : Nat) (holdFrom : Option Nat) : State :=
  { (heldBy 2).withLc
      { (heldBy 2).lc with requestLine := (heldBy 2).lc.requestLine.set 1 true, holdFrom } with
    localTime := now }

/-- For `WithdrawalsAndHolds` and `GrantsLapseAndPass`: tenure at 50 and below, a hold at its limit of 500 and
below, and the grace that follows a withdrawal. -/
theorem test_withdrawals_at_their_limits :
    (contested 50 none).lc.grant = .held 2 0 ∧
      (∃ d : Channel, d ≠ 2 ∧ (contested 50 none).lc.requestLine[d] = true) ∧
      (0 + 50 ≤ (contested 50 none).localTime ∧ ¬ 0 + 50 ≤ (contested 49 none).localTime) ∧
      ((contested 500 (some 0)).lc.holdFrom = some 0 ∧ 0 + 500 ≤ (contested 500 (some 0)).localTime) ∧
      (contested 499 (some 0)).localTime < 0 + 500 ∧
      (after .tenureReached (contested 50 none)).lc.grant = .withdrawing 2 (some 50) := by
  decide +kernel

/-- For `WithdrawalsAndHolds`: a Hold and a Release Hold that act. -/
theorem test_holds_act :
    Delivered .hold 2 (short .hold 2 0) (contested 60 none) ∧
      Delivered .releaseHold 2 (short .releaseHold 2 0) (contested 60 (some 20)) ∧
      (contested 60 (some 20)).lc.holdFrom ≠ none := by decide +kernel

/-- For `EveryStepKeepsRecordsSound`: a record that counts a refusal. -/
theorem test_records_sound :
    RecordsSound ((heldBy 2).refuse 2 0x25#8 .unknownKind) := by unfold RecordsSound; decide

/-- For `EveryStepKeepsArbiterSound`: channel 2 in an exchange. -/
theorem test_arbiter_sound : ArbiterSound (heldBy 2) := by
  refine ⟨fun _ => ⟨rfl, rfl⟩, fun h => absurd h (by decide), ?_, ?_, Or.inl rfl⟩
  · intro b hb
    exact ⟨false, (Option.some.inj hb).symm⟩
  · intro r hr
    exact nomatch hr

/-! ### Witnesses: clock, marks and crossings -/

/-- Reader A's queue holds marks of given numbers, captured at 0, and 5 is the next number. -/
def marked (numbers : List (BitVec 8)) (s : State) : State :=
  s.withCmu
    { s.cmu with
      marksA := { queue := numbers.map fun n => { number := n, tick := 450, captured := 0 }, next := 5#8 } }

/-- For `ClockAndMarkEvents`: a stopped and a running clock; no mark of the next number with room for one
more and with none; a mark of that number in a full queue. -/
theorem test_mark_pulse_cases :
    State.reset.cmu.clock.isRunning = false ∧ (clocked 500 (.running 0) State.reset).cmu.clock.isRunning ∧
      (let q := (marked ((List.range 31).map fun n => BitVec.ofNat 8 (n + 6)) State.reset).cmu.marksA.queue
       (∀ x ∈ q, x.number ≠ 5#8) ∧ q.length < 32) ∧
      (let q := (marked ((List.range 32).map fun n => BitVec.ofNat 8 (n + 6)) State.reset).cmu.marksA.queue
       (∀ x ∈ q, x.number ≠ 5#8) ∧ 32 ≤ q.length) ∧
      (let q := (marked ((List.range 32).map fun n => BitVec.ofNat 8 (n + 5)) State.reset).cmu.marksA.queue
       (∃ x ∈ q, x.number = 5#8) ∧ q.length ≤ 32) := by decide +kernel

/-- R29: a pulse while the clock runs is captured under the next number. -/
theorem test_mark_pulse_is_captured :
    (after (.markPulse .a) (clocked 500 (.running 0) (marked [4#8] State.reset))).cmu.marksA =
      { queue := [{ number := 4#8, tick := 450, captured := 0 },
                  { number := 5#8, tick := 500, captured := 0 }], next := 6#8 } := by
  decide +kernel

/-- For `EveryStepKeepsTimeSound`: a clock at its last running value and two marks. -/
theorem test_time_sound : TimeSound (clocked 16777214 (.running 0) (marked [3#8, 4#8] State.reset)) := by
  refine ⟨Nat.le_refl _, ?_, ?_⟩ <;> (unfold MarksSound; decide)

/-- For `ClassificationFollowsTheTable`: the rows at the ends of their ranges, p - w below 0 among them. -/
theorem test_classification_rows :
    (bib2741 none none).pass1 = none ∧ (bib2741 (passAt 100) none).pass2 = none ∧
      ((100 : Int) - 600 ≤ (0 : Nat) ∧ 0 < 100) ∧ ((1000 : Int) - 600 ≤ (400 : Nat) ∧ 400 < 1000) ∧
      (1000 ≤ 1600 ∧ ((1600 : Nat) : Int) ≤ 1000 + 600) ∧
      (¬ ((1000 : Int) - 600 ≤ (121000 : Nat) ∧ ((121000 : Nat) : Int) ≤ 1000 + 600) ∧
        twoPassPoint.d2 ≠ 0 ∧ 1000 + twoPassPoint.gap ≤ 121000) ∧
      (bib2741 (passAt 1000) (passAt 121000)).pass2 = passAt 121000 := by decide

/-- Two marks wait for reader A while the clock runs and channel 0 holds the line. -/
def reporting : State := clocked 500 (.running 0) (marked [7#8, 8#8] (heldBy 0))

/-- For `CrossingReportsAreTaken`: a claim of a queued mark, and of one not queued, by bibs at both ends of
the range and beyond; a bib in the table; a bib absent, with a slot for it; the clock stopped, and a tick
at and beyond its value. -/
theorem test_crossing_reports_arrive :
    Delivered .crossingReport 0 (long .crossingReport 0 (be16 100 ++ be16 8)) reporting ∧
      Delivered .timedCrossingReport 0 (long .timedCrossingReport 0 (be16 100 ++ be32 500)) reporting ∧
      (((0 : Channel) = 0 ∧ Reader.a = .a) ∨ ((0 : Channel) = 1 ∧ Reader.a = .b)) ∧
      ((reporting.cmu.marks .a).queue =
          [{ number := 7#8, tick := 450, captured := 0 }] ++
            { number := 8#8, tick := 450, captured := 0 } :: [] ∧
        ((reporting.cmu.marks .a).queue.map fun y => y.number).Nodup) ∧
      (∀ x ∈ (reporting.cmu.marks .a).queue, x.number.toNat ≠ 9) ∧
      (withRunner plain reporting).rt.lookup 100 = some 5 ∧ reporting.rt.lookup 100 = none ∧
      (∃ i, (allocateForCrossing 100 reporting).map (fun x => x.1) = some i) ∧
      State.reset.cmu.clock.state = .stopped ∧ reporting.cmu.clock.state ≠ .stopped ∧
      reporting.cmu.clock.value < 501 := by
  refine ⟨?_, ?_, ?_, ?_, ?_, ?_, ?_, ⟨0, ?_⟩, ?_, ?_, ?_⟩ <;> decide +kernel

/-- For `CrossingIsRecordedAndLogged`: the slot is occupied before and after. -/
theorem test_a_crossing_of_an_occupied_slot :
    (withRunner plain reporting).rt.slots[(5 : Slot)] = some plain ∧
      ((crossSlot 5 .a false 450 (withRunner plain reporting)).rt.slots[(5 : Slot)]).isSome := by
  decide +kernel

/-- For `CrossingIsRouted`: a leader; a pinned runner at an unmasked level, with the leader level off; no
pin. -/
theorem test_crossing_routes :
    let timed := { plain with derived1 := { Derived.absent with raceTime := some 5 } }
    let off := State.reset.withFc { State.reset.fc with leaderLevel := none }
    (State.reset.fc.leaderLevel = some 1 ∧ State.reset.fc.leader1 = false ∧
        timed.derived1.raceTime ≠ none) ∧
      (off.fc.leaderLevel = none ∧ { plain with pin := some 7 }.pin = some 7 ∧ 1 ≤ off.bi.bandHeight ∧
        off.fc.mask.getLsbD 7 = false) ∧
      plain.pin = none := by decide

/-! ### Witnesses: the runner table -/

/-- For `AllocationResult`: the only slot beyond the victim is held, and a list with held slots only. -/
theorem test_allocation_cases :
    let t := (RunnerTable.empty.hold 0)
    t.order = (List.finRange 256).reverse.take 254 ++ 1 :: [0] ∧ t.order.Nodup ∧ t.isPinned 1 = false ∧
      t.holds[(1 : Slot)] = 0 ∧ (∀ j ∈ ([0] : List Slot), t.isPinned j = true ∨ 0 < t.holds[j]) ∧
      (let u := { t with order := [0] }
       ∀ j ∈ u.order, u.isPinned j = true ∨ 0 < u.holds[j]) := by
  decide +kernel

/-- A Roster Fill of channel 2: bib, flags and wave, with no name and no upstream split. -/
def fillOf (bib flags wave : Nat) : Packet :=
  long .rosterFill 2 (be16 bib ++ be8 flags ++ be8 0 ++ be8 wave ++ be16 0 ++ be32 0xFFFFFFFF)

/-- For `RosterFillResult`: bibs 0 and 65,535; a wave of 8; bib 100 present, and absent with preload and
without. -/
theorem test_roster_fill_cases :
    Delivered .rosterFill 2 (fillOf 0 0 0xFF) (heldBy 2) ∧
      Delivered .rosterFill 2 (fillOf 65535 0 0xFF) (heldBy 2) ∧
      Delivered .rosterFill 2 (fillOf 100 0 8) (heldBy 2) ∧
      (7 < byteAt (payloadOf (fillOf 100 0 8)) 4 ∧ byteAt (payloadOf (fillOf 100 0 8)) 4 ≠ 0xFF) ∧
      Delivered .rosterFill 2 (fillOf 100 1 0) (withRunner plain (heldBy 2)) ∧
      byteAt (payloadOf (fillOf 100 1 0)) 2 % 2 = 1 ∧ byteAt (payloadOf (fillOf 100 0 0)) 2 % 2 = 0 ∧
      (heldBy 2).rt.lookup 100 = none ∧ (withRunner plain (heldBy 2)).rt.lookup 100 = some 5 ∧
      ((heldBy 2).rt.allocate plain).isSome := by decide +kernel

/-- A NEW record of bib 100 with its fill request, SENT at 0 for the third time. -/
def overdue : State :=
  let s := withRunner (Record.fresh 100 .new) State.reset
  { s.withRt { s.rt with fills := [{ bib := 100, slot := 5, sent := true, offers := 3, sentAt := some 0 }] }
    with localTime := 30000 }

/-- R74: at the third timeout the request leaves the list and the slot becomes UNFILLED. -/
theorem test_third_timeout_gives_up :
    (after .fillTimeout overdue).rt.fills = [] ∧
      (after .fillTimeout overdue).rt.slots[(5 : Slot)] = some (Record.fresh 100 .unfilled) := by
  decide +kernel

/-- For `FillRequestsAreSentAndTimeOut`. -/
theorem test_fill_requests_cases :
    overdue.resetHeld = false ∧ overdue.rt.fills[0]? =
      some { bib := 100, slot := 5, sent := true, offers := 3, sentAt := some 0 } := by decide

/-- A Pin of channel 2. -/
def pinOf (bib level : Nat) : Packet := long .pin 2 (be16 bib ++ be8 level)

/-- For `PinResult`: bad bib, levels 0 and 8, level 7 of a bib present and of one absent; 32 pinned slots. -/
theorem test_pin_cases :
    Delivered .pin 2 (pinOf 0 7) (heldBy 2) ∧ Delivered .pin 2 (pinOf 100 0) (heldBy 2) ∧
      Delivered .pin 2 (pinOf 100 8) (heldBy 2) ∧
      Delivered .pin 2 (pinOf 100 7) (withRunner plain (heldBy 2)) ∧
      (withRunner plain (heldBy 2)).rt.pinnedCount < 32 ∧
      (let t := { (heldBy 2).rt with
          slots := Vector.ofFn fun i =>
            if i.val < 32 then some { Record.fresh (i.val + 1) .filled with pin := some 1 } else none }
       32 ≤ t.pinnedCount ∧ t.lookup 100 = none) := by decide +kernel

/-- For `UnpinReadAndFlush` and `CorrectionsAndVisits`: bib 100 present and absent, a bad bib, and a stale
slot at the pass position. -/
theorem test_requests_on_a_bib :
    Delivered .unpin 2 (short .unpin 2 0) (heldBy 2) ∧ paramOf (short .unpin 2 0) = 0 ∧
      Delivered .unpin 2 (short .unpin 2 100) (withRunner plain (heldBy 2)) ∧
      paramOf (short .unpin 2 100) = 100 ∧
      Delivered .readRecord 2 (short .readRecord 2 100) (withRunner plain (heldBy 2)) ∧
      Delivered .correctPass 2 (long .correctPass 2 (be16 100 ++ be8 2 ++ be32 16777215))
        (withRunner plain (heldBy 2)) ∧
      Delivered .correctPass 2 (long .correctPass 2 (be16 100 ++ be8 3 ++ be32 0)) (heldBy 2) ∧
      (withRunner plain (heldBy 2)).rt.slots[(5 : Slot)] = some plain ∧
      ((withRunner { plain with stale := true } State.reset).withSa { position := some 5 }).sa.position =
        some 5 := by decide +kernel

/-- For `DerivationFollowsTheFormulas` and `DerivationOfRecords`: a gun at the tick, before it and after it;
no candidate kept; of the candidates 20,000 m and the start the farther one; a fill wave, a range that
holds the bib and none. -/
theorem test_derivation_cases :
    gunAt90000[(2 : Wave)].gun = some 90000 ∧ 89999 < 90000 ∧
      (∀ u ∈ [((0 : Nat), (0 : Nat))], ¬ (u.1 < 25000 ∧ u.2 < 90000 - 90000)) ∧
      (20000 < 25000 ∧ 744210 < 1020537 - 90000 ∧
        ∀ u ∈ [((0 : Nat), (0 : Nat))], u.1 < 25000 → u.2 < 930537 → u.1 ≤ 20000) ∧
      (bib2741 none none).fillWave = some 2 ∧ plain.fillWave = none ∧
      gunAt90000[(7 : Wave)].range = none := by decide

/-! ### Witnesses: log, band, list and board -/

/-- For `CollectAndRelease` and `EveryStepKeepsLogSound`: the log across the wrap. -/
theorem test_log_sound : LogSound ((heldBy 2).withSl logAcrossTheWrap) := by
  refine ⟨by decide, fun k e h => ?_⟩
  have hk : k < 5 := (List.getElem?_eq_some_iff.mp h).1
  interval_cases k <;> (cases Option.some.inj h; decide)

/-- For `CollectAndRelease`: a Release of the entry at 0 and of a number not held. -/
theorem test_release_cases :
    Delivered .release 2 (short .release 2 0) ((heldBy 2).withSl logAcrossTheWrap) ∧
      Delivered .collect 2 (long .collect 2 (be16 65535 ++ be8 2)) ((heldBy 2).withSl logAcrossTheWrap) ∧
      logAcrossTheWrap.entries.map (fun e => e.number) = [65534#16, 65535#16] ++ 0#16 :: [1#16, 2#16] ∧
      (∀ e ∈ logAcrossTheWrap.entries, e.number ≠ 3#16) := by decide +kernel

/-- A runner feature of slot 5 at a level. -/
def featureOf (k : Level) : Feature :=
  { level := k, ref := .runner { slot := 5, bib := 100, kind := .runner }, dwell := some 0 }

/-- Bib 100 is shown at level 3 with its dwell over and its hold. -/
def showing : State :=
  let s := withRunner plain (heldBy 2)
  (s.withRt (s.rt.hold 5)).withFc { s.fc with shown := some (featureOf 3) }

/-- Four entries wait at level 3. -/
def fullLevel : State :=
  let q : List FeatureEntry := [1, 2, 3, 4].map fun i => { slot := i, bib := i.val, kind := .runner }
  State.reset.withFc { State.reset.fc with queues := State.reset.fc.queues.set 3 q }

/-- For `FeatureRequestResult`: the slot shown; queued; new to a level with room and to a full one. -/
theorem test_feature_request_cases :
    (∃ g ∈ showing.fc.shown, g.slotOf = some 5) ∧
      (4 ∈ featureSlots { fullLevel.fc with shown := none } ∧ ∀ g ∈ fullLevel.fc.shown, g.slotOf ≠ some 4) ∧
      (5 ∉ featureSlots State.reset.fc ∧ State.reset.fc.queues[(3 : Level)].length < 4) ∧
      (5 ∉ featureSlots fullLevel.fc ∧ 4 ≤ fullLevel.fc.queues[(3 : Level)].length) := by decide +kernel

/-- A message waits at level 2. -/
def posted : State :=
  State.reset.withFc (State.reset.fc.postNew 6 2 600 [List.replicate 48 0x20#8])

/-- For `SelectionResult`: a candidate to be shown with an empty stack, and one of a lower level than the top
of the stack. -/
theorem test_selection_cases :
    posted.fc.best = some (2, .message 6) ∧ posted.fc.shown = none ∧ posted.fc.stack = [] ∧
      (let f := { posted.fc with stack := [featureOf 3] }
       f.mode = .nested ∧ f.best = some (2, .message 6) ∧ (2 : Level) < (featureOf 3).level) ∧
      (let f := { posted.fc with mode := .rotating, stack := [featureOf 3] }
       f.shown = none ∧ f.best = some (2, .message 6)) := by decide +kernel

/-- For `SelectionResult`: a message and the oldest entry of a queue to be shown; B of 0; a shown feature of
level 3 that a candidate of level 2 preempts in NESTED, one of level 0 in ROTATING, and none otherwise. -/
theorem test_preemption_cases :
    (posted.fc.messages[(6 : Fin 8)]).isSome ∧
      (∃ rest, fullLevel.fc.queues[(3 : Level)] = { slot := 1, bib := 1, kind := .runner } :: rest) ∧
      (posted.withBi { posted.bi with bandHeight := 0 }).bi.bandHeight = 0 ∧ showing.fc.shown ≠ none ∧
      (1 ≤ showing.bi.bandHeight ∧ showing.fc.shown = some (featureOf 3) ∧
        ∀ k c, showing.fc.best ≠ some (k, c)) ∧
      (let f := { posted.fc with shown := some (featureOf 3) }
       f.mode = .nested ∧ f.best = some (2, .message 6) ∧ (2 : Level) < (featureOf 3).level) ∧
      (let f := { State.reset.fc.postNew 6 0 600 [] with mode := .rotating, shown := some (featureOf 3) }
       f.best = some (0, .message 6) ∧ (featureOf 3).level ≠ 0) := by
  refine ⟨?_, ⟨_, rfl⟩, rfl, by decide, ⟨by decide, rfl, ?_⟩, ?_, ?_⟩
  · decide +kernel
  · intro k c h
    have : showing.fc.best = none := by decide +kernel
    rw [this] at h
    exact nomatch h
  · decide +kernel
  · decide +kernel

/-- A held message 0 of level 6 that waits on the stack. -/
def drinks : Feature := { level := 6, ref := .message 0, dwell := none }

/-- RUNNER 40 of level 3 with 4,500 ms left. -/
def runner40 : Feature :=
  { level := 3, ref := .runner { slot := 40, bib := 1187, kind := .runner }, dwell := some 4500 }

/-- 07 section 7.9 at 2,500: message 2 of level 2 and 20 s preempts RUNNER 40, which is pushed with 4,500. -/
theorem test_nesting_at_2500 :
    let f := { (State.reset.fc.postNew 2 2 20 []) with shown := some runner40, stack := [drinks] }
    f.preempt.shown = some { level := 2, ref := .message 2, dwell := some 20000 } ∧
      f.preempt.stack = [runner40, drinks] := by decide +kernel

/-- A Post Message of message 7 at level 7 with `k` lines. -/
def postOf (message k : Nat) : Packet :=
  long .postMessage 2 (be8 message ++ be8 7 ++ be16 5 ++ be8 k ++ List.replicate (48 * k) 0x20#8)

/-- For `MessageRequests`: message 7 with 1 line, message 8, no line; a message to delete, and number 8. -/
theorem test_message_request_cases :
    Delivered .postMessage 2 (postOf 7 1) (heldBy 2) ∧ Delivered .postMessage 2 (postOf 8 1) (heldBy 2) ∧
      Delivered .postMessage 2 (postOf 7 0) (heldBy 2) ∧ (heldBy 2).fc.messages[(7 : Fin 8)] = none ∧
      Delivered .deleteMessage 2 (short .deleteMessage 2 6) ((heldBy 2).withFc posted.fc) ∧
      Delivered .deleteMessage 2 (short .deleteMessage 2 8) (heldBy 2) ∧
      (posted.fc.messages[(6 : Fin 8)]).isSome := by decide +kernel

/-- For `FeatureEndings`: End Feature non-specific, of level 3 shown and of level 2 not shown, and of code 8;
Feature Setup of a bad mode, of another mode while a feature is shown, and of the mode in force; a dwell
that is over. -/
theorem test_feature_ending_cases :
    Delivered .endFeature 2 (short .endFeature 2 0xFF) showing ∧
      Delivered .endFeature 2 (short .endFeature 2 3) showing ∧
      Delivered .endFeature 2 (short .endFeature 2 8) showing ∧
      (∃ g ∈ showing.fc.shown, g.level = 3) ∧ (∀ g ∈ showing.fc.shown, g.level ≠ 2) ∧
      (∀ g ∈ showing.fc.stack, g.level ≠ 2) ∧
      Delivered .featureSetup 2 (long .featureSetup 2 (be8 2 ++ be8 0 ++ be8 0 ++ be16 1000)) showing ∧
      Delivered .featureSetup 2 (long .featureSetup 2 (be8 1 ++ be8 0 ++ be8 7 ++ be16 1000)) showing ∧
      Delivered .featureSetup 2 (long .featureSetup 2 (be8 0 ++ be8 0 ++ be8 0xFF ++ be16 0)) showing ∧
      showing.fc.shown ≠ none ∧ (∃ g ∈ showing.fc.shown, g.dwell = some 0) := by decide +kernel

/-- RUNNER 40 and under it the held message 0 are suspended; message 0 is SUSPENDED. -/
def suspendedTwo : State :=
  State.reset.withFc
    { State.reset.fc with
      stack := [runner40, drinks]
      messages := State.reset.fc.messages.set 0
        (some { level := 6, duration := 0, lines := [], state := .suspended }) }

/-- For `FeatureEndings`: a shown feature, none, a stack with an entry of level 6 under another, none of level
5, and a rotation order without repetition. -/
theorem test_endings_have_their_states :
    showing.fc.shown = some (featureOf 3) ∧ State.reset.fc.shown = none ∧
      (suspendedTwo.fc.stack = [runner40] ++ drinks :: [] ∧ (drinks.level == 6) = true ∧
        ∀ x ∈ [runner40], (x.level == 6) = false) ∧
      (∀ x ∈ suspendedTwo.fc.stack, (x.level == 5) = false) ∧ suspendedTwo.fc.rotation.Nodup := by
  decide +kernel

/-- R133: the masking of levels 3 and 6 ends both suspended features, and the held message waits again. -/
theorem test_masking_ends_the_suspended :
    let t := maskLevels 0#8 0x48#8 suspendedTwo
    t.fc.stack = [] ∧
      t.fc.messages[(0 : Fin 8)] = some { level := 6, duration := 0, lines := [], state := .waiting } := by
  decide +kernel

/-- 07 section 7.10: the end of message 1 at level 3 moves level 3 to the end of the rotation order. -/
theorem test_turns_in_rotating :
    let f := { State.reset.fc with mode := .rotating }
    (f.rotate 3).rotation = [1, 2, 4, 5, 6, 7, 3] ∧ (f.rotate 0).rotation = f.rotation := by decide

/-- Bib 100 waits at the head of the board queue, with a crossing tick of 100. -/
def queued (clock : Nat) : State :=
  let s := clocked clock (.running 0) (withRunner plain State.reset)
  (s.withRt (s.rt.hold 5)).withLs
    { s.ls with queue := [{ slot := 5, bib := 100, pass := .one, tick := 100 }] }

/-- Bib 100 is shown by buffer 7, the bottom one, since local time 0; line expiry 5,000. -/
def listed (now : Nat) : State :=
  let s := withRunner plain State.reset
  let line := renderedLine s.rt 5 100 .one 0
  { (s.withRt (s.rt.hold 5)).withLs
      { s.ls with buffers := s.ls.buffers.set 7 (some line), lineExpiry := 5000 } with
    localTime := now }

/-- For `ListArrivalsAndInsertions` and `ListTimers`: the head stale at 2,901, eligible at 900 and 2,900 with
the bottom buffer EMPTY, not eligible at 899; a bottom buffer that has dwelt 2,000 ms and one 1,999; a line
at its expiry and before; an arrival of a slot shown, of one queued, and of a new one. -/
theorem test_list_cases :
    100 + (queued 0).ls.leadDelay + (queued 0).ls.ageLimit < (queued 2901).cmu.clock.value ∧
      (queued 2900).cmu.clock.value ≤ 100 + (queued 0).ls.leadDelay + (queued 0).ls.ageLimit ∧
      (100 + (queued 0).ls.leadDelay ≤ (queued 900).cmu.clock.value ∧
        (queued 900).ls.buffers[7]? = some none) ∧
      (queued 899).cmu.clock.value < 100 + (queued 0).ls.leadDelay ∧
      ((listed 2000).ls.buffers[7]?.any fun b => b.any fun line => line.shownAt + 2000 ≤ 2000) ∧
      ((listed 5000).ls.lineExpiry ≠ 0 ∧ 0 + (listed 5000).ls.lineExpiry ≤ (listed 5000).localTime ∧
        (listed 4999).localTime < 0 + (listed 4999).ls.lineExpiry) ∧
      (listed 0).ls.lineOf 5 = some 7 ∧ (∃ e ∈ (queued 0).ls.queue, e.slot = 5) ∧
      (∀ e ∈ (queued 0).ls.queue, e.slot ≠ 6) := by decide +kernel

/-- For `ListTimers`, `ListArrivalsAndInsertions` and `BoardLinesAreRendered`: the board's shape, buffer 7 the
first that shows slot 5, and a line that is due. -/
theorem test_lines_to_render_and_expire :
    let s := listed 5000
    s.ls.top < s.ls.buffers.length ∧ 7 < s.ls.buffers.length ∧
      s.bi.image.length = s.bi.bandHeight + s.ls.buffers.length ∧
      (∃ line, s.ls.buffers[7]? = some (some line) ∧ line.slot = 5 ∧
        line.shownAt + s.ls.lineExpiry ≤ s.localTime) ∧
      (∀ n < 7, ∀ o, s.ls.buffers[n]? ≠ some (some o)) ∧ 9 + [blankLine].length ≤ s.bi.image.length := by
  refine ⟨by decide +kernel, by decide +kernel, by decide +kernel, ⟨_, rfl, by decide +kernel, ?_⟩, ?_,
    by decide +kernel⟩
  · decide +kernel
  · intro n hn o h
    interval_cases n <;> exact nomatch h

/-- R151: the line already due is blank afterwards, in its place and on the board. -/
theorem test_due_line_expires :
    (expireLines 8 (listed 5000)).ls.buffers[7]? = some none ∧
      (expireLines 8 (listed 4999)).ls.buffers[7]? ≠ some none ∧
      (expireLines 8 (listed 5000)).rt.holds[(5 : Slot)] = 0 := by decide +kernel

/-- R155: the band at power-on. -/
theorem test_band_at_power_on : bandRows State.reset = [idleLineAtPowerOn, blankLine] := by decide +kernel

/-- For `BoardLinesAreRendered`: nothing shown, a message, and a runner, with a band of 2. -/
theorem test_band_line_cases :
    State.reset.fc.shown = none ∧ State.reset.bi.bandHeight = 1 + 1 ∧
      (showing.fc.shown = some (featureOf 3) ∧ showing.rt.slots[(5 : Slot)] = some plain ∧
        showing.bi.bandHeight = 0 + 2) ∧
      (let f := { posted.fc with shown := some { level := 2, ref := .message 6, dwell := some 5 } }
       (f.messages[(6 : Fin 8)]).isSome) := by decide +kernel

/-- R145: the eligible head is inserted on the top line, at the bottom buffer's place. -/
theorem test_insertion :
    (headTest (queued 900)).ls.top = 7 ∧ (headTest (queued 900)).ls.queue = [] ∧
      (headTest (queued 900)).rt.holds[(5 : Slot)] = 1 := by decide +kernel

/-- A defined window. -/
def window0 : Window :=
  { address := 5, firstLine := 0, lastLine := 9, firstCell := 0, lastCell := 47, turned := false }

/-- Window 5 alone is defined, at local time `now`. -/
def scanning (now : Nat) : State :=
  { State.reset.withBi { State.reset.bi with windows := State.reset.bi.windows.set 5 (some window0) } with
    localTime := now }

/-- For `ScanSendsWindowsInOrder`: a scan due at 100 and not at 99; window 5 the first defined; a frame being
sent. -/
theorem test_scan_cases :
    (scanning 100).bi.scanFrom + (scanning 100).bi.scanPeriod ≤ (scanning 100).localTime ∧
      (scanning 99).localTime < (scanning 99).bi.scanFrom + (scanning 99).bi.scanPeriod ∧
      (scanning 100).bi.windows[(5 : Fin 6)] = some window0 ∧
      (∀ j : Fin 6, j < 5 → (scanning 100).bi.windows[j] = none) ∧
      ((after .scanStart (scanning 100)).bi.sending.map fun f => f.window) = some 5 := by decide +kernel

/-- For `ScanSendsWindowsInOrder`: a window whose rectangle lies on a board of 48 cells a line. -/
theorem test_a_window_on_the_board :
    WindowSound (scanning 100).bi.lineCount window0 ∧
      window0.lastLine < (scanning 100).bi.image.length ∧
      ∀ row ∈ (scanning 100).bi.image, row.length = 48 := by
  unfold WindowSound
  decide +kernel

/-- R164: a turned window of lines 3 to 4 and cells 10 to 13 sends line 4 from cell 13 to 10, then line 3;
here a cell's character is its line and its cell. -/
theorem test_turned_window :
    let image := (List.range 5).map fun i => (List.range 48).map fun j =>
      ({ char := BitVec.ofNat 8 (50 * i + j), emphasis := false } : Cell)
    (windowCells image
        { address := 0, firstLine := 3, lastLine := 4, firstCell := 10, lastCell := 13, turned := true }).map
        (fun c => c.char.toNat) = [213, 212, 211, 210, 163, 162, 161, 160] := by decide +kernel

/-- A Panel Window of channel 3 for window `w` with address `a` and last line `n`. -/
def windowOf (w a n : Nat) : Packet :=
  long .panelWindow 3 (be8 w ++ be8 a ++ be8 0 ++ be8 n ++ be8 0 ++ be8 47 ++ be8 0)

/-- For `DisplayRequests`: windows 5 and 6; unused; a last line of 9 and of 10, which the board lacks; a duty
table that falls and one that rises. -/
theorem test_display_request_cases :
    Delivered .panelWindow 3 (windowOf 5 5 9) (heldBy 3) ∧
      Delivered .panelWindow 3 (windowOf 6 5 9) (heldBy 3) ∧
      Delivered .panelWindow 3 (windowOf 5 0xFF 9) (heldBy 3) ∧
      Delivered .panelWindow 3 (windowOf 5 5 10) (heldBy 3) ∧ (heldBy 3).bi.lineCount ≤ 10 ∧
      Delivered .dutyTable 3 (long .dutyTable 3 ((List.range 16).map fun i => BitVec.ofNat 8 i))
        (heldBy 3) ∧
      (∀ i < 15, byteAt ((List.range 16).map fun i => BitVec.ofNat 8 i) i ≤
        byteAt ((List.range 16).map fun i => BitVec.ofNat 8 i) (i + 1)) := by decide +kernel

/-- For `BoardLayoutRequests`: 12 lines with a band of 4, 13 lines, and the layout in force. -/
theorem test_board_layout_cases :
    Delivered .boardLayout 3 (long .boardLayout 3 [12#8, 4#8, 7#8]) (heldBy 3) ∧
      Delivered .boardLayout 3 (long .boardLayout 3 [13#8, 4#8, 7#8]) (heldBy 3) ∧
      Delivered .boardLayout 3 (long .boardLayout 3 [10#8, 2#8, 0#8]) (heldBy 3) ∧
      (heldBy 3).bi.lineCount = 10 ∧ (heldBy 3).bi.bandHeight = 2 ∧ (heldBy 3).bi.clockWave = 0 := by
  decide +kernel

/-- For `ResetRequests`: the holder with its hold in force. -/
theorem test_channel_reset_ends_the_hold :
    Delivered .channelReset 2 (short .channelReset 2 0) (contested 60 (some 20)) ∧
      (contested 60 (some 20)).lc.grant = .held 2 0 ∧
      (after (.channelReset (short .channelReset 2 0)) (contested 60 (some 20))).lc.grant =
        .withdrawing 2 (some 60) := by decide +kernel

/-! ### Witnesses: the invariants of table, band, list and board -/

/-- Bib 100, pinned at level 7, in slot 5. -/
def pinned : Record := { plain with pin := some 7 }

/-- Bib 100 is pinned and waits in the board queue, with a pass in flight. -/
def populated : State :=
  ((queued 500).withRt { (queued 500).rt with slots := (queued 500).rt.slots.set 5 (some pinned) }).withSa
    { position := some 3 }

/-- The one occupied slot. -/
theorem populated_slots (i : Slot) (r : Record) (h : populated.rt.slots[i] = some r) :
    i = 5 ∧ r = pinned := by
  have e : populated.rt.slots = (Vector.replicate 256 none).set 5 (some pinned) := by
    simp [populated, queued, withRunner, RunnerTable.put, RunnerTable.hold, State.withRt, State.withLs,
      State.withSa, clocked, State.withCmu, State.reset, State.atPowerOn, RunnerTable.empty]
  rw [e] at h
  simp only [Fin.getElem_fin, Vector.getElem_set, Vector.getElem_replicate] at h
  split at h
  · rename_i hi
    exact ⟨Fin.ext hi.symm, (Option.some.inj h).symm⟩
  · exact nomatch h

/-- For `EveryStepKeepsTheTable`: the recency order. -/
theorem test_recency_sound : RecencySound populated := by
  have e : populated.rt.order = (List.finRange 256).reverse := by
    simp [populated, queued, withRunner, RunnerTable.put, RunnerTable.hold, State.withRt, State.withLs,
      State.withSa, clocked, State.withCmu, State.reset, State.atPowerOn, RunnerTable.empty]
  unfold RecencySound
  rw [e]
  exact List.reverse_perm _

/-- For `EveryStepKeepsTheTable`: bibs, pins and fill requests. -/
theorem test_table_sound : TableSound populated := by
  refine ⟨⟨?_, ?_⟩, ⟨by decide +kernel, ?_⟩, by decide, List.nodup_nil, ?_, ?_⟩
  · intro i j r q hi hj _
    rw [(populated_slots i r hi).1, (populated_slots j q hj).1]
  · intro i r hi
    rw [(populated_slots i r hi).2]
    decide
  · intro i r hi
    rw [(populated_slots i r hi).2]
    decide
  · intro e he
    exact nomatch he
  · intro i r hi hn
    rw [(populated_slots i r hi).2] at hn
    exact nomatch hn

/-- For `EveryStepKeepsTheTable`: a slot yet to be visited may be STALE. -/
theorem test_stale_sound : StaleSound populated := by
  intro i r hi _
  rw [(populated_slots i r hi).1]
  exact ⟨3, rfl, by decide⟩

/-- For `EveryStepKeepsBandSound`: the band of a board with nothing shown. -/
theorem test_band_sound : BandSound populated := by
  refine ⟨List.Pairwise.nil, fun h => absurd h (by decide), fun h => absurd h (by decide), ?_, ?_, List.nodup_nil,
    List.Perm.refl _, List.Perm.refl _⟩
  · intro m msg h
    have : populated.fc.messages = Vector.replicate 8 none := rfl
    rw [this] at h
    simp at h
  · intro g hg
    exact nomatch hg

/-- For `ResetRequests` (Race Clear): the board and the list agree. -/
theorem test_board_sound : BoardSound populated := by
  refine ⟨by decide, by decide, by decide, by decide, by decide, by decide, ?_, ?_, by decide +kernel, ?_,
    ?_, ?_⟩
  · unfold RowSound charOk
    decide +kernel
  · intro i w h
    have : populated.bi.windows = Vector.replicate 6 none := rfl
    rw [this] at h
    simp at h
  · intro line h
    have : populated.ls.buffers = List.replicate 8 none := rfl
    rw [this] at h
    simp at h
  · intro i r hi name hn
    rw [(populated_slots i r hi).2] at hn
    exact nomatch hn
  · intro m msg h
    have : populated.fc.messages = Vector.replicate 8 none := rfl
    rw [this] at h
    simp at h

/-- For `EveryStepKeepsReferencesSound`. -/
theorem test_references_sound : ReferencesSound populated := by
  refine ⟨⟨by decide, by decide⟩, ⟨by decide, by decide⟩, test_band_sound, test_board_sound,
    by decide +kernel, ?_, ?_, ?_, ?_⟩
  · intro line h
    have : populated.ls.buffers = List.replicate 8 none := rfl
    rw [this] at h
    simp at h
  · intro e he
    refine ⟨pinned, ?_, ?_⟩ <;> (rw [List.mem_singleton.mp he]; rfl)
  · intro k e he
    have : populated.fc.queues = Vector.replicate 8 [] := rfl
    rw [this] at he
    simp at he
  · intro g hg
    exact nomatch hg

/-- For `EveryCommandIsCarriedOut`. -/
theorem test_allocation_sound : AllocationSound populated :=
  ⟨test_recency_sound, test_table_sound, test_references_sound⟩

end Sys2Proof.Tests
end

section
/-! The part of the state that only the station link's commands move: the link controller, local time, the
RESET level and the queue. Every operation of the other blocks leaves it alone. -/

namespace Sys2Proof.Machine

/-- What no block but the link controller moves: the link controller, local time, the RESET level and the
queue. -/
def State.lineView (s : State) : LinkState × Nat × Bool × List Instr :=
  (s.lc, s.localTime, s.resetHeld, s.pending)

theorem lineView_eq_iff {s t : State} :
    t.lineView = s.lineView ↔
      t.lc = s.lc ∧ t.localTime = s.localTime ∧ t.resetHeld = s.resetHeld ∧ t.pending = s.pending := by
  simp [State.lineView]

/-! ### Updates of one block -/

@[simp] theorem withCmu_lineView (s : State) (x : CmuState) : (s.withCmu x).lineView = s.lineView := rfl
@[simp] theorem withCi_lineView (s : State) (x : PointSettings) : (s.withCi x).lineView = s.lineView := rfl
@[simp] theorem withRt_lineView (s : State) (x : RunnerTable) : (s.withRt x).lineView = s.lineView := rfl
@[simp] theorem withSa_lineView (s : State) (x : PassState) : (s.withSa x).lineView = s.lineView := rfl
@[simp] theorem withSl_lineView (s : State) (x : SplitLog) : (s.withSl x).lineView = s.lineView := rfl
@[simp] theorem withFc_lineView (s : State) (x : FeatureState) : (s.withFc x).lineView = s.lineView := rfl
@[simp] theorem withLs_lineView (s : State) (x : ListState) : (s.withLs x).lineView = s.lineView := rfl
@[simp] theorem withBi_lineView (s : State) (x : BoardState) : (s.withBi x).lineView = s.lineView := rfl
@[simp] theorem withAtt_lineView (s : State) (x : AttentionState) : (s.withAtt x).lineView = s.lineView := rfl
@[simp] theorem withClock_lineView (s : State) (k : Clock) : (s.withClock k).lineView = s.lineView := rfl
@[simp] theorem withMarks_lineView (s : State) (r : Reader) (m : ReaderMarks) :
    (s.withMarks r m).lineView = s.lineView := rfl

/-! ### The board image and the list -/

@[simp] theorem writeLines_lineView (s : State) (first : Nat) (rows : List (List Cell)) :
    (s.writeLines first rows).lineView = s.lineView := rfl
@[simp] theorem renderBand_lineView (s : State) : (renderBand s).lineView = s.lineView := rfl
@[simp] theorem writeList_lineView (s : State) : (writeList s).lineView = s.lineView := rfl
@[simp] theorem writeBuffer_lineView (j : Nat) (s : State) :
    (writeBuffer j s).lineView = s.lineView := rfl

@[simp] theorem renderIdleClock_lineView (s : State) : (renderIdleClock s).lineView = s.lineView := by
  unfold renderIdleClock
  split <;> simp

@[simp] theorem rerenderBuffer_lineView (j : Nat) (line : ListLine) (pass : PassNo) (s : State) :
    (rerenderBuffer j line pass s).lineView = s.lineView := rfl

@[simp] theorem rerenderLine_lineView (i : Slot) (s : State) :
    (rerenderLine i s).lineView = s.lineView := by
  unfold rerenderLine
  repeat' split
  all_goals simp

@[simp] theorem rerenderBand_lineView (i : Slot) (s : State) :
    (rerenderBand i s).lineView = s.lineView := by
  unfold rerenderBand
  repeat' split
  all_goals simp

@[simp] theorem rerender_lineView (i : Slot) (s : State) : (rerender i s).lineView = s.lineView := by
  simp [rerender]

@[simp] theorem dropHead_lineView (e : QueueEntry) (rest : List QueueEntry) (s : State) :
    (dropHead e rest s).lineView = s.lineView := rfl
@[simp] theorem insertHead_lineView (e : QueueEntry) (rest : List QueueEntry) (s : State) :
    (insertHead e rest s).lineView = s.lineView := rfl

@[simp] theorem headTestSteps_lineView (n : Nat) (s : State) :
    (headTestSteps n s).lineView = s.lineView := by
  induction n generalizing s with
  | zero => rfl
  | succ n ih =>
    unfold headTestSteps
    repeat' split
    all_goals simp [ih]

@[simp] theorem headTest_lineView (s : State) : (headTest s).lineView = s.lineView := by
  simp [headTest]

@[simp] theorem arrive_lineView (slot : Slot) (bib : Nat) (pass : PassNo) (tick : Nat) (s : State) :
    (arrive slot bib pass tick s).lineView = s.lineView := by
  unfold arrive
  dsimp only
  repeat' split
  all_goals simp

@[simp] theorem emptyBuffer_lineView (j : Nat) (s : State) :
    (emptyBuffer j s).lineView = s.lineView := rfl

@[simp] theorem expireLines_lineView (n : Nat) (s : State) :
    (expireLines n s).lineView = s.lineView := by
  induction n with
  | zero => rfl
  | succ n ih =>
    unfold expireLines
    dsimp only
    split <;> simp [ih]

@[simp] theorem emptyList_lineView (size : Nat) (s : State) :
    (emptyList size s).lineView = s.lineView := rfl

@[simp] theorem clockValueChanged_lineView (s : State) :
    (clockValueChanged s).lineView = s.lineView := by
  simp [clockValueChanged]

/-! ### The feature band -/

@[simp] theorem selectFeature_lineView (s : State) : (selectFeature s).lineView = s.lineView := by
  unfold selectFeature
  split <;> simp

@[simp] theorem testPreemption_lineView (s : State) : (testPreemption s).lineView = s.lineView := by
  unfold testPreemption
  split <;> simp

@[simp] theorem selectOrTest_lineView (s : State) : (selectOrTest s).lineView = s.lineView := by
  unfold selectOrTest
  split <;> simp

@[simp] theorem finishFeature_lineView (deleted : Bool) (g : Feature) (s : State) :
    (finishFeature deleted g s).lineView = s.lineView := by
  unfold finishFeature
  repeat' split
  all_goals simp

@[simp] theorem endShown_lineView (deleted : Bool) (s : State) :
    (endShown deleted s).lineView = s.lineView := by
  unfold endShown
  split <;> simp

@[simp] theorem endAndSelect_lineView (deleted : Bool) (s : State) :
    (endAndSelect deleted s).lineView = s.lineView := by
  simp [endAndSelect]

/-- A fold of operations that leave the link alone leaves it alone. -/
theorem foldl_lineView {α : Type} (op : State → α → State)
    (h : ∀ s a, (op s a).lineView = s.lineView) (l : List α) (s : State) :
    (l.foldl op s).lineView = s.lineView := by
  induction l generalizing s with
  | nil => rfl
  | cons a l ih => rw [List.foldl_cons, ih, h]

@[simp] theorem removeSuspended_lineView (deleted : Bool) (gone : Feature → Bool) (s : State) :
    (removeSuspended deleted gone s).lineView = s.lineView := by
  unfold removeSuspended
  rw [foldl_lineView _ fun t g => finishFeature_lineView deleted g t, withFc_lineView]

@[simp] theorem dropOldest_lineView (k : Level) (s : State) :
    (dropOldest k s).lineView = s.lineView := by
  unfold dropOldest
  repeat' split
  all_goals simp

@[simp] theorem queueEntry_lineView (k : Level) (e : FeatureEntry) (s : State) :
    (queueEntry k e s).lineView = s.lineView := rfl

@[simp] theorem requestFeature_lineView (k : Level) (e : FeatureEntry) (s : State) :
    (requestFeature k e s).lineView = s.lineView := by
  unfold requestFeature
  repeat' split
  all_goals simp

@[simp] theorem postChecked_lineView (m : Fin 8) (k : Level) (duration : Nat) (lines : List (List Byte))
    (s : State) : (postChecked m k duration lines s).lineView = s.lineView := by
  unfold postChecked
  dsimp only
  repeat' split
  all_goals simp

@[simp] theorem deleteStored_lineView (m : Fin 8) (s : State) :
    (deleteStored m s).lineView = s.lineView := by
  unfold deleteStored
  repeat' split
  all_goals simp

@[simp] theorem maskLevel_lineView (k : Level) (s : State) : (maskLevel k s).lineView = s.lineView := by
  unfold maskLevel
  split <;> simp

@[simp] theorem maskLevels_lineView (old new : BitVec 8) (s : State) :
    (maskLevels old new s).lineView = s.lineView :=
  foldl_lineView _ (fun t k => maskLevel_lineView k t) _ s

/-! ### Board layout -/

@[simp] theorem layoutList_lineView (s : State) : (layoutList s).lineView = s.lineView := by
  simp [layoutList]

@[simp] theorem layoutBand_lineView (oldB : Nat) (oldWave : Wave) (s : State) :
    (layoutBand oldB oldWave s).lineView = s.lineView := by
  unfold layoutBand
  repeat' split
  all_goals simp

@[simp] theorem layoutChecked_lineView (n b : Nat) (w : Wave) (s : State) :
    (layoutChecked n b w s).lineView = s.lineView := by
  unfold layoutChecked
  dsimp only
  split <;> simp

/-! ### Clock, marks and waves -/

@[simp] theorem clockStop_lineView (s : State) : (clockStop s).lineView = s.lineView := by
  unfold clockStop
  split <;> simp

@[simp] theorem countLost_lineView (s : State) (r : Reader) : (s.countLost r).lineView = s.lineView := rfl
@[simp] theorem countOrphan_lineView (s : State) (r : Reader) :
    (s.countOrphan r).lineView = s.lineView := rfl

@[simp] theorem captureMark_lineView (r : Reader) (n : BitVec 8) (s : State) :
    (captureMark r n s).lineView = s.lineView := by
  unfold captureMark
  dsimp only
  split <;> simp

@[simp] theorem markPulse_lineView (r : Reader) (s : State) : (markPulse r s).lineView = s.lineView := by
  unfold markPulse
  dsimp only
  repeat' split
  all_goals simp

@[simp] theorem trigger_lineView (named : Record → Bool) (s : State) :
    (trigger named s).lineView = s.lineView := rfl

@[simp] theorem storeWave_lineView (w : Wave) (entry : WaveEntry) (s : State) :
    (storeWave w entry s).lineView = s.lineView := by
  unfold storeWave
  dsimp only
  repeat' split
  all_goals simp

/-! ### The runner table and crossings -/

@[simp] theorem deriveSlot_lineView (s : State) (i : Slot) : (s.deriveSlot i).lineView = s.lineView := by
  unfold State.deriveSlot
  split <;> simp

@[simp] theorem visitSlot_lineView (i : Slot) (s : State) : (visitSlot i s).lineView = s.lineView := by
  unfold visitSlot
  repeat' split
  all_goals simp

@[simp] theorem fillSlot_lineView (i : Slot) (bib : Nat) (f : FillFields) (s : State) :
    (fillSlot i bib f s).lineView = s.lineView := by
  unfold fillSlot
  split <;> simp

@[simp] theorem staleFill_lineView (s : State) : (staleFill s).lineView = s.lineView := rfl

@[simp] theorem correctSlot_lineView (i : Slot) (pass : PassNo) (tick : Option Nat) (s : State) :
    (correctSlot i pass tick s).lineView = s.lineView := by
  unfold correctSlot
  split <;> simp

theorem crossingSlot_lineView {bib : Nat} {i : Slot} {s t : State}
    (h : crossingSlot bib s = some (i, t)) : t.lineView = s.lineView := by
  unfold crossingSlot allocateForCrossing at h
  repeat' split at h
  all_goals (cases h; try simp)

@[simp] theorem logCrossing_lineView (cls : Class) (reader : Reader) (timed : Bool) (x : Nat) (r : Record)
    (s : State) : (logCrossing cls reader timed x r s).lineView = s.lineView := by
  cases cls <;> rfl

@[simp] theorem routePass_lineView (i : Slot) (pass : PassNo) (x : Nat) (r : Record) (s : State) :
    (routePass i pass x r s).lineView = s.lineView := by
  unfold routePass
  dsimp only
  repeat' split
  all_goals simp

@[simp] theorem routeCrossing_lineView (i : Slot) (cls : Class) (x : Nat) (r : Record) (s : State) :
    (routeCrossing i cls x r s).lineView = s.lineView := by
  cases cls <;> simp [routeCrossing]

@[simp] theorem crossingRecency_lineView (i : Slot) (cls : Class) (s : State) :
    (crossingRecency i cls s).lineView = s.lineView := by
  unfold crossingRecency
  split <;> simp

@[simp] theorem crossSlot_lineView (i : Slot) (reader : Reader) (timed : Bool) (x : Nat) (s : State) :
    (crossSlot i reader timed x s).lineView = s.lineView := by
  unfold crossSlot
  split <;> simp

/-! ### List timing and race clear -/

@[simp] theorem listTiming_lineView (minDwell lineExpiry leadDelay ageLimit : Nat) (s : State) :
    (listTiming minDwell lineExpiry leadDelay ageLimit s).lineView = s.lineView := by
  simp [listTiming]

@[simp] theorem raceClear_lineView (s : State) : (raceClear s).lineView = s.lineView := by
  simp [raceClear]

/-! ### Owner blocks -/

/-- An owner block's answer leaves the link, local time, the RESET level and the queue as they were. -/
def Answer.KeepsLine (s : State) : Answer → Prop
  | .done t => t.lineView = s.lineView
  | .refused _ t => t.lineView = s.lineView
  | .stop _ => True

@[simp] theorem keepsLine_done {s t : State} :
    (Answer.done t).KeepsLine s ↔ t.lineView = s.lineView := Iff.rfl
@[simp] theorem keepsLine_refused {s t : State} {r : Reason} :
    (Answer.refused r t).KeepsLine s ↔ t.lineView = s.lineView := Iff.rfl
@[simp] theorem keepsLine_stop {s : State} {f : Fault} : (Answer.stop f).KeepsLine s := trivial

theorem crossing_keepsLine (reader : Reader) (timed : Bool) (bib x : Nat) (s : State) :
    (crossing reader timed bib x s).KeepsLine s := by
  unfold crossing
  split
  · split
    · rename_i i t h
      simp [crossingSlot_lineView h]
    · simp
  · simp

theorem crossingReport_keepsLine (r : Reader) (bib number : Nat) (s : State) :
    (crossingReport r bib number s).KeepsLine s := by
  unfold crossingReport
  split
  · simp
  · exact crossing_keepsLine r false bib _ (s.withMarks r _)

theorem timedCrossingReport_keepsLine (r : Reader) (bib x : Nat) (s : State) :
    (timedCrossingReport r bib x s).KeepsLine s := by
  unfold timedCrossingReport
  repeat' split
  · simp
  · simp
  · exact crossing_keepsLine r true bib x s

theorem clockSet_keepsLine (tick : Nat) (s : State) : (clockSet tick s).KeepsLine s := by
  unfold clockSet
  repeat' split
  all_goals simp

theorem clockTrim_keepsLine (amount : Int) (s : State) : (clockTrim amount s).KeepsLine s := by
  unfold clockTrim
  dsimp only
  repeat' split
  all_goals simp

theorem waveSet_keepsLine (wave rangeCode first last gunCode tick : Nat) (s : State) :
    (waveSet wave rangeCode first last gunCode tick s).KeepsLine s := by
  unfold waveSet
  repeat' split
  all_goals simp

theorem gunClear_keepsLine (wave : Nat) (s : State) : (gunClear wave s).KeepsLine s := by
  unfold gunClear
  split <;> simp

theorem pointSetup_keepsLine (l d1 d2 g w : Nat) (s : State) :
    (pointSetup l d1 d2 g w s).KeepsLine s := by
  unfold pointSetup
  repeat' split
  all_goals simp

theorem rosterFill_keepsLine (bib : Nat) (flag : Bool) (nameLength wave distance time : Nat)
    (name : List Byte) (s : State) :
    (rosterFill bib flag nameLength wave distance time name s).KeepsLine s := by
  unfold rosterFill preload
  repeat' split
  all_goals simp

theorem pinBib_keepsLine (bib level : Nat) (s : State) : (pinBib bib level s).KeepsLine s := by
  unfold pinBib pinAbsent
  repeat' split
  all_goals simp

theorem withBib_keepsLine {bib : Nat} {s : State} {act : Slot → Answer}
    (h : ∀ i, (act i).KeepsLine s) : (withBib bib s act).KeepsLine s := by
  unfold withBib
  repeat' split
  all_goals simp [h]

theorem correctPass_keepsLine (bib code : Nat) (tick : Option Nat) (s : State) :
    (correctPass bib code tick s).KeepsLine s := by
  unfold correctPass
  repeat' split
  · simp
  · simp
  · exact withBib_keepsLine fun i => by simp
  · simp

theorem releaseEntries_keepsLine (n : Half) (s : State) : (releaseEntries n s).KeepsLine s := by
  unfold releaseEntries
  split <;> simp

theorem postMessage_keepsLine (message level duration lineCount : Nat) (text : List Byte) (s : State) :
    (postMessage message level duration lineCount text s).KeepsLine s := by
  unfold postMessage
  repeat' split
  all_goals simp

theorem deleteMessage_keepsLine (message : Nat) (s : State) : (deleteMessage message s).KeepsLine s := by
  unfold deleteMessage
  split <;> simp

theorem endFeature_keepsLine (code : Nat) (s : State) : (endFeature code s).KeepsLine s := by
  unfold endFeature endLevel
  repeat' split
  all_goals simp

theorem featureSetup_keepsLine (modeCode : Nat) (mask : BitVec 8) (leaderCode dwell : Nat) (s : State) :
    (featureSetup modeCode mask leaderCode dwell s).KeepsLine s := by
  unfold featureSetup
  dsimp only
  repeat' split
  all_goals simp

theorem boardLayout_keepsLine (n b wave : Nat) (s : State) : (boardLayout n b wave s).KeepsLine s := by
  unfold boardLayout
  repeat' split
  all_goals simp

theorem displayMode_keepsLine (code : Nat) (s : State) : (displayMode code s).KeepsLine s := by
  unfold displayMode
  split <;> simp

theorem dutyTable_keepsLine (entries : Vector Byte 16) (s : State) : (dutyTable entries s).KeepsLine s := by
  unfold dutyTable
  split <;> simp

theorem panelWindow_keepsLine (number : Nat) (w : Option Window) (s : State) :
    (panelWindow number w s).KeepsLine s := by
  unfold panelWindow
  repeat' split
  all_goals simp

end Sys2Proof.Machine
end

section
/-! What a command can do to the link controller, said once: a relation with one case for each thing that can
happen to it, and the inversion of `exec` into that relation (chapter 1). The statements about every step of
the link follow from it. -/

namespace Sys2Proof.Machine

/-! ### Error records (R9) -/

/-- A record's count is within its cap, and a first refusal is held exactly when one is counted (R9). -/
def ErrorRecord.Sound (e : ErrorRecord) : Prop := e.refusals ≤ 255 ∧ (e.first.isSome ↔ 0 < e.refusals)

/-- The records of `new` are sound for every channel whose record in `old` was (R9). -/
def RecordsKept (old new : Vector ErrorRecord 4) : Prop := ∀ c : Channel, old[c].Sound → new[c].Sound

/-- Reading a channel's entry after a write to one. -/
theorem getElem_set_channel {α : Type} (v : Vector α 4) (c d : Channel) (x : α) :
    (v.set c x)[d] = if d = c then x else v[d] := by
  simp [Vector.getElem_set, Fin.ext_iff, eq_comm]

theorem emptyRecord_sound : ErrorRecord.empty.Sound := by
  simp [ErrorRecord.Sound, ErrorRecord.empty]

theorem refusal_sound (e : ErrorRecord) (kind : Byte) (reason : Reason) :
    (e.refusal kind reason).Sound := by
  constructor
  · simp [ErrorRecord.refusal, satInc]
  · simp only [ErrorRecord.refusal, satInc]
    cases e.first <;> simp

theorem recordsKept_refl (e : Vector ErrorRecord 4) : RecordsKept e e := fun _ => id

theorem recordsKept_trans {e f g : Vector ErrorRecord 4} (h : RecordsKept e f) (h' : RecordsKept f g) :
    RecordsKept e g := fun c hc => h' c (h c hc)

/-- Changing one record in a way that keeps it sound. -/
theorem recordsKept_set {e : Vector ErrorRecord 4} (c : Channel) {x : ErrorRecord}
    (h : e[c].Sound → x.Sound) : RecordsKept e (e.set c x) := by
  intro d hd
  rw [getElem_set_channel]
  split
  · rename_i hdc
    exact h (hdc ▸ hd)
  · exact hd

/-! ### What a failed check and the last bytes of a burst record -/

/-- `t` is `s` with link errors or refusals recorded, the burst's framing possibly lost, and nothing else
changed (R5, R6, R9). -/
def Recorded (s t : State) : Prop :=
  ∃ b e, RecordsKept s.lc.errors e ∧ t = s.withLc { s.lc with burst := b, errors := e }

theorem recorded_refl (s : State) : Recorded s s := ⟨_, _, recordsKept_refl _, rfl⟩

theorem recorded_trans {s t u : State} (h : Recorded s t) (h' : Recorded t u) : Recorded s u := by
  obtain ⟨b, e, he, rfl⟩ := h
  obtain ⟨b', e', he', rfl⟩ := h'
  exact ⟨b', e', recordsKept_trans he he', rfl⟩

/-- A change of one record that keeps it sound. -/
theorem updError_recorded (s : State) (c : Channel) {f : ErrorRecord → ErrorRecord}
    (h : ∀ e : ErrorRecord, e.Sound → (f e).Sound) : Recorded s (s.updError c f) :=
  ⟨s.lc.burst, s.lc.errors.set c (f s.lc.errors[c]), recordsKept_set c (h _), rfl⟩

theorem flagCut_recorded (s : State) (c : Channel) : Recorded s (s.flagCut c) :=
  updError_recorded s c fun _ => id

theorem packetErrorEffect_recorded (e : PacketError) (kind : Byte) (c : Channel) (s : State) :
    Recorded s (packetErrorEffect e kind c s) := by
  cases e with
  | headerBad =>
    exact recorded_trans ⟨some (.taken c true), s.lc.errors, recordsKept_refl _, rfl⟩
      (updError_recorded _ c (f := fun e => { e with headerBad := true }) fun _ => id)
  | wrongChannel => exact updError_recorded s c (f := fun e => { e with wrongChannel := true }) fun _ => id
  | payloadBad => exact updError_recorded s c (f := fun e => { e with payloadBad := true }) fun _ => id
  | unknownKind | notPermitted => exact updError_recorded s c fun e _ => refusal_sound e kind _

theorem tailHeader_recorded (tail : List Byte) (c : Channel) (s : State) :
    Recorded s (tailHeader tail c s) := by
  unfold tailHeader
  repeat' split
  · exact recorded_refl s
  · exact packetErrorEffect_recorded _ _ c s
  · exact recorded_refl s

theorem closeErrors_recorded (tail : List Byte) (c : Channel) (s : State) :
    Recorded s (closeErrors tail c s) := by
  unfold closeErrors
  dsimp only
  split
  · exact recorded_trans (tailHeader_recorded tail c s) (flagCut_recorded _ c)
  · exact tailHeader_recorded tail c s

/-! ### The moves of the link controller -/

/-- Everything a command other than the two resets can make of the link controller of `s`. -/
inductive LinkMove (s : State) : LinkState → Prop
  /-- Nothing of the link moves. -/
  | stays : LinkMove s s.lc
  /-- While RESET is asserted only the input lines move (R171). -/
  | inputs (lines : Vector Bool 4) (busy : Bool) (held : s.resetHeld = true) :
    LinkMove s { s.lc with requestLine := lines, masterBusy := busy }
  /-- A link error or a refusal is recorded (R9). -/
  | recorded (e : Vector ErrorRecord 4) (kept : RecordsKept s.lc.errors e) :
    LinkMove s { s.lc with errors := e }
  /-- A bad header loses the framing of the burst heard (R6). -/
  | framingLost (c : Channel) (e : Vector ErrorRecord 4) (heard : s.hearing = some c)
    (kept : RecordsKept s.lc.errors e) :
    LinkMove s { s.lc with burst := some (.taken c true), errors := e }
  /-- A reply joins a queue with room for it (R7, R11). -/
  | replied (c : Channel) (r : Reply) (room : s.lc.replies[c].length < 4) :
    LinkMove s { s.lc with replies := s.lc.replies.set c (s.lc.replies[c] ++ [r]) }
  /-- A burst opens on a free link (R1). -/
  | opened (run : s.resetHeld = false) (noBurst : s.lc.burst = none) (noReply : s.lc.replyBurst = none) :
    LinkMove s (openBurst s.localTime s.lc)
  /-- A taken burst ends without an answer (R2, R18). -/
  | takenEnded (c : Channel) (lost : Bool) (e : Vector ErrorRecord 4) (run : s.resetHeld = false)
    (taken : s.lc.burst = some (.taken c lost)) (kept : RecordsKept s.lc.errors e) :
    LinkMove s (endExchange s.localTime { s.lc with burst := none, errors := e })
  /-- A taken burst ends with the turnaround (R12). -/
  | turned (c : Channel) (lost : Bool) (e : Vector ErrorRecord 4) (run : s.resetHeld = false)
    (taken : s.lc.burst = some (.taken c lost)) (kept : RecordsKept s.lc.errors e) :
    LinkMove s (turnaround c { s.lc with errors := e })
  /-- An ignored burst ends (R1, R19). -/
  | ignoredEnded (e : Vector ErrorRecord 4) (ignored : ∀ c lost, s.lc.burst ≠ some (.taken c lost))
    (kept : RecordsKept s.lc.errors e) :
    LinkMove s { s.lc with burst := none, errors := e }
  /-- A reply burst ends (R12, R18, R19). -/
  | replyEnded (run : s.resetHeld = false) (sending : s.lc.replyBurst.isSome) :
    LinkMove s (settle s.localTime (endExchange s.localTime { s.lc with replyBurst := none }))
  /-- A request line rises (R14, R16, R17). -/
  | raised (c : Channel) (run : s.resetHeld = false) (low : s.lc.requestLine[c] = false) :
    LinkMove s (requestRaised c s.localTime { s.lc with requestLine := s.lc.requestLine.set c true })
  /-- A request line falls (R15, R18, R20). -/
  | dropped (c : Channel) (run : s.resetHeld = false) (high : s.lc.requestLine[c] = true) :
    LinkMove s (requestDropped c s.localTime { s.lc with requestLine := s.lc.requestLine.set c false })
  /-- The masters release the busy line (R3, R14, R19). -/
  | released (run : s.resetHeld = false) (noBurst : s.lc.burst = none) :
    LinkMove s (busyReleased s.localTime { s.lc with masterBusy := false })
  /-- An offer lapses (R15, R19). -/
  | lapsed (c : Channel) (since : Nat) (e : Vector ErrorRecord 4) (busy : Bool)
    (run : s.resetHeld = false) (offered : s.lc.grant = .offered c since)
    (kept : RecordsKept s.lc.errors e) :
    LinkMove s (withdraw s.localTime c none { s.lc with errors := e, masterBusy := busy })
  /-- The withdrawal conditions are tested, with the hold ended before or not (R17, R20). -/
  | tested (hold : Option Nat) (run : s.resetHeld = false) (ended : hold = s.lc.holdFrom ∨ hold = none) :
    LinkMove s (withdrawalTest s.localTime { s.lc with holdFrom := hold })
  /-- The withdrawal grace ends (R19). -/
  | graceOver (c : Channel) (grace : Option Nat) (withdrawing : s.lc.grant = .withdrawing c grace) :
    LinkMove s { s.lc with grant := .withdrawing c none, burst := burstAfterGrace s.lc.burst }
  /-- The arbitration settings are stored (R21). -/
  | setUp (c : Channel) (mode : ArbMode) (park : Option Channel) (heard : s.hearing = some c) :
    LinkMove s { s.lc with mode, park }
  /-- A hold is put in force (R20). -/
  | holdPut (c : Channel) (holder : isHolder c s.lc.grant = true) :
    LinkMove s { s.lc with holdFrom := some s.localTime }
  /-- The holder's hold ends at its request (R20). -/
  | holdReleased (c : Channel) (run : s.resetHeld = false) : LinkMove s (endHold s.localTime c s.lc)
  /-- A channel is reset (R22). -/
  | channelReset (c : Channel) (run : s.resetHeld = false) :
    LinkMove s (endHold s.localTime c
      { s.lc with replies := s.lc.replies.set c [], errors := s.lc.errors.set c ErrorRecord.empty })

/-- `t` follows from `s` by a move of the link, with local time, the RESET level and the queue kept. -/
def Moves (s t : State) : Prop :=
  LinkMove s t.lc ∧ t.localTime = s.localTime ∧ t.resetHeld = s.resetHeld ∧ t.pending = s.pending

/-- A change of the link alone is a move when the link's change is one. -/
theorem moves_withLc {s : State} {l : LinkState} (h : LinkMove s l) : Moves s (s.withLc l) :=
  ⟨h, rfl, rfl, rfl⟩

theorem moves_refl (s : State) : Moves s s := moves_withLc .stays

/-- What leaves the link and its surroundings alone is a move. -/
theorem moves_of_lineView {s t : State} (h : t.lineView = s.lineView) : Moves s t := by
  obtain ⟨hlc, htime, hreset, hpending⟩ := lineView_eq_iff.mp h
  exact ⟨hlc ▸ .stays, htime, hreset, hpending⟩

/-- A move seen through states that agree on the link and its surroundings. -/
theorem moves_congr {s t u : State} (h : Moves s t) (hu : u.lineView = t.lineView) : Moves s u := by
  obtain ⟨hlc, htime, hreset, hpending⟩ := lineView_eq_iff.mp hu
  obtain ⟨move, time, reset, pending⟩ := h
  exact ⟨hlc ▸ move, htime.trans time, hreset.trans reset, hpending.trans pending⟩

/-! ### Requests -/

/-- An owner block's answer is a move of the link, or a refusal that leaves the link to the record. -/
def Answer.MovesLink (s : State) : Answer → Prop
  | .done t => Moves s t
  | .refused _ t => t.lineView = s.lineView
  | .stop _ => True

theorem movesLink_of_keepsLine {s : State} {a : Answer} (h : a.KeepsLine s) : a.MovesLink s := by
  cases a with
  | done t => exact moves_of_lineView h
  | refused r t => exact h
  | stop f => trivial

/-- A refusal changes the record of its channel alone (R9). -/
theorem refuse_moves {s t : State} (c : Channel) (kind : Byte) (reason : Reason)
    (h : t.lineView = s.lineView) : Moves s (t.refuse c kind reason) := by
  obtain ⟨hlc, htime, hreset, hpending⟩ := lineView_eq_iff.mp h
  refine ⟨?_, htime, hreset, hpending⟩
  rw [refuse_eq, State.withLc_lc, hlc]
  exact .recorded _ (recordsKept_set c fun _ => refusal_sound _ kind reason)

/-- A failed check of R5 moves the link by its record and the loss of the burst's framing. -/
theorem packetErrorEffect_moves {s : State} {c : Channel} (e : PacketError) (kind : Byte)
    (heard : s.hearing = some c) : Moves s (packetErrorEffect e kind c s) := by
  cases e with
  | headerBad => exact moves_withLc (.framingLost c _ heard (recordsKept_set c id))
  | wrongChannel | payloadBad => exact moves_withLc (.recorded _ (recordsKept_set c id))
  | unknownKind | notPermitted => exact refuse_moves c kind _ rfl

/-- The path of a packet moves the link when its owner block does. -/
theorem receive_moves {k : Kind} {p : Packet} {owner : Channel → State → Answer} {s t : State}
    (h : receive k p owner s = .next t) (ho : ∀ c, Delivered k c p s → (owner c s).MovesLink s) :
    Moves s t := by
  rcases receive_cases h with ⟨-, rfl⟩ | ⟨c, e, heard, -, rfl⟩ | ⟨c, r, -, -, -, rfl⟩ | ⟨c, hd, ha⟩
  · exact moves_refl t
  · exact packetErrorEffect_moves e _ heard
  · exact refuse_moves c _ r rfl
  · have hmove := ho c hd
    rcases ha with ha | ⟨r, u, ha, rfl⟩
    · rwa [ha] at hmove
    · rw [ha] at hmove
      exact refuse_moves c _ r hmove

/-- The path of a packet moves the link only by its record when its owner block leaves the link alone. -/
theorem receive_moves_of_keepsLine {k : Kind} {p : Packet} {owner : Channel → State → Answer} {s t : State}
    (h : receive k p owner s = .next t) (ho : ∀ c, (owner c s).KeepsLine s) : Moves s t :=
  receive_moves h fun c _ => movesLink_of_keepsLine (ho c)

/-- A delivered packet of an asking kind finds room in its channel's reply queue (R7). -/
theorem room_of_delivered {k : Kind} {c : Channel} {p : Packet} {s : State} (hd : Delivered k c p s)
    (asking : kindAsking k = true) : s.lc.replies[c].length < 4 := by
  obtain ⟨-, -, hr⟩ := hd
  by_contra hfull
  have hfull : kindAsking k = true ∧ Config.replyCapacity ≤ s.lc.replies[c].length :=
    ⟨asking, by simpa using hfull⟩
  unfold requestRefusal at hr
  rw [if_pos hfull] at hr
  split at hr <;> cases hr

/-- A reply of an asking kind moves the link by the reply alone. -/
theorem enqueueReply_moves {k : Kind} {c : Channel} {p : Packet} {s t : State} (r : Reply)
    (hd : Delivered k c p s) (asking : kindAsking k = true) (ht : t.lineView = s.lineView) :
    Moves s (t.enqueueReply c r) := by
  obtain ⟨hlc, htime, hreset, hpending⟩ := lineView_eq_iff.mp ht
  refine ⟨?_, htime, hreset, hpending⟩
  rw [enqueueReply_eq, State.withLc_lc, hlc]
  exact .replied c r (room_of_delivered hd asking)

/-! ### Events -/

theorem event_moves {s t : State} {f : State → State} (h : event s f = .next t)
    (hf : s.resetHeld = false → Moves s (f s)) : Moves s t := by
  rcases event_cases h with ⟨-, rfl⟩ | ⟨hr, rfl⟩
  · exact moves_refl t
  · exact hf hr

/-- An event of another block moves nothing of the link. -/
theorem event_moves_of_lineView {s t : State} {f : State → State} (h : event s f = .next t)
    (hf : (f s).lineView = s.lineView) : Moves s t :=
  event_moves h fun _ => moves_of_lineView hf

/-- The end of an ignored burst after the grace sets CUT and closes it (R19). -/
theorem afterGrace_ended_moves {s : State} {c : Channel} (hb : s.lc.burst = some (.afterGrace c)) :
    Moves s ((s.flagCut c).withLc (s.flagCut c).lc.closeBurst) :=
  moves_withLc (.ignoredEnded _ (by simp [hb]) (recordsKept_set c id))

/-- The end of a burst opened in IDLE closes it (R1). -/
theorem unheard_ended_moves {s : State} (hb : s.lc.burst = some .unheard) :
    Moves s (s.withLc s.lc.closeBurst) :=
  moves_withLc (.ignoredEnded _ (by simp [hb]) (recordsKept_refl _))

/-- The end of a taken burst after its last records, without an answer (R18). -/
theorem takenEnded_moves {s u : State} {c : Channel} {lost : Bool} (run : s.resetHeld = false)
    (hb : s.lc.burst = some (.taken c lost)) (hu : Recorded s u) :
    Moves s ((u.withLc u.lc.closeBurst).arbiter endExchange) := by
  obtain ⟨b, e, he, rfl⟩ := hu
  exact moves_withLc (.takenEnded c lost e run hb he)

theorem execOpenPattern_moves {s t : State} (h : execOpenPattern s = .next t) : Moves s t := by
  unfold execOpenPattern at h
  split at h
  · cases h
    exact moves_withLc (.inputs _ true (by assumption))
  · split at h
    · cases h
      exact moves_refl s
    · rename_i hr hfree
      cases h
      simp only [not_or, Bool.not_eq_true, Option.isSome_eq_false_iff, Option.isNone_iff_eq_none] at hr hfree
      exact moves_withLc (.opened hr hfree.1 hfree.2)

theorem execNormalClose_moves {tail : List Byte} {s t : State} (h : execNormalClose tail s = .next t) :
    Moves s t := by
  refine event_moves h fun run => ?_
  dsimp only
  split
  · rename_i c lost hb
    refine takenEnded_moves run hb ?_
    split
    · exact recorded_refl s
    · exact closeErrors_recorded tail c s
  · exact afterGrace_ended_moves (by assumption)
  · exact unheard_ended_moves (by assumption)
  · exact moves_refl s

theorem execCut_moves {tail : List Byte} {s t : State} (h : execCut tail s = .next t) : Moves s t := by
  refine event_moves h fun run => ?_
  dsimp only
  split
  · rename_i c lost hb
    refine takenEnded_moves run hb (recorded_trans ?_ (flagCut_recorded _ c))
    split
    · exact recorded_refl s
    · exact tailHeader_recorded tail c s
  · exact afterGrace_ended_moves (by assumption)
  · exact unheard_ended_moves (by assumption)
  · exact moves_refl s

theorem execTurnClose_moves {tail : List Byte} {s t : State} (h : execTurnClose tail s = .next t) :
    Moves s t := by
  refine event_moves h fun run => ?_
  dsimp only
  split
  · rename_i c lost hb
    have hu : Recorded s (if lost = true then s else closeErrors tail c s) := by
      split
      · exact recorded_refl s
      · exact closeErrors_recorded tail c s
    obtain ⟨b, e, he, heq⟩ := hu
    rw [heq]
    exact moves_withLc (.turned c lost e run hb he)
  · exact afterGrace_ended_moves (by assumption)
  · exact unheard_ended_moves (by assumption)
  · exact moves_refl s

theorem execReplyBurstEnd_moves {s t : State} (h : execReplyBurstEnd s = .next t) : Moves s t := by
  refine event_moves h fun run => ?_
  split
  · rename_i r hr
    exact moves_withLc (.replyEnded run (by simp [hr]))
  · exact moves_refl s

theorem execHeaderBad_moves {header : Header} {s t : State} (h : execHeaderBad header s = .next t) :
    Moves s t := by
  unfold execHeaderBad at h
  repeat' split at h
  all_goals cases h
  · exact moves_refl s
  · exact packetErrorEffect_moves _ _ (by assumption)
  · exact moves_refl s

theorem execUnknownKind_moves {kind : Byte} {p : Packet} {s t : State}
    (h : execUnknownKind kind p s = .next t) : Moves s t := by
  unfold execUnknownKind at h
  repeat' split at h
  all_goals cases h
  · exact moves_refl s
  · exact packetErrorEffect_moves _ _ (by assumption)
  · exact moves_refl s
  · exact moves_refl s

/-- An event on input lines that have moved: while RESET is asserted the levels alone are noted (R171). -/
theorem event_withLc_moves {s t : State} {lines : Vector Bool 4} {busy : Bool}
    {op : Nat → LinkState → LinkState}
    (run : s.resetHeld = false →
      LinkMove s (op s.localTime { s.lc with requestLine := lines, masterBusy := busy }))
    (h : event (s.withLc { s.lc with requestLine := lines, masterBusy := busy })
      (fun u => u.arbiter op) = .next t) : Moves s t := by
  rcases event_cases h with ⟨hr, rfl⟩ | ⟨hr, rfl⟩
  · exact moves_withLc (.inputs lines busy hr)
  · exact moves_withLc (run hr)

theorem execRequestRaised_moves {c : Channel} {s t : State} (h : execRequestRaised c s = .next t) :
    Moves s t := by
  unfold execRequestRaised at h
  split at h
  · cases h
    exact moves_refl s
  · rename_i low
    exact event_withLc_moves (fun run => .raised c run (by simpa using low)) h

theorem execRequestDropped_moves {c : Channel} {s t : State} (h : execRequestDropped c s = .next t) :
    Moves s t := by
  unfold execRequestDropped at h
  split at h
  · rename_i high
    exact event_withLc_moves (fun run => .dropped c run high) h
  · cases h
    exact moves_refl s

theorem execBusyRelease_moves {s t : State} (h : execBusyRelease s = .next t) : Moves s t := by
  unfold execBusyRelease at h
  split at h
  · cases h
    exact moves_refl s
  · rename_i hb
    have noBurst : s.lc.burst = none := by simp_all
    exact event_withLc_moves (fun run => .released run noBurst) h

theorem execOfferTimerExpiry_moves {s t : State} (h : execOfferTimerExpiry s = .next t) : Moves s t := by
  refine event_moves h fun run => ?_
  split
  · rename_i c since hg
    split
    · exact moves_withLc (.lapsed c since _ _ run hg (recordsKept_set c id))
    · exact moves_refl s
  all_goals exact moves_refl s

theorem execTenureReached_moves {s t : State} (h : execTenureReached s = .next t) : Moves s t :=
  event_moves h fun run => moves_withLc (.tested s.lc.holdFrom run (.inl rfl))

theorem execWithdrawalGraceEnd_moves {s t : State} (h : execWithdrawalGraceEnd s = .next t) :
    Moves s t := by
  refine event_moves h fun _ => ?_
  dsimp only
  split
  · rename_i c grace hg
    split
    · exact moves_withLc (.graceOver c grace hg)
    · exact moves_refl s
  all_goals exact moves_refl s

theorem execHoldLimit_moves {s t : State} (h : execHoldLimit s = .next t) : Moves s t := by
  refine event_moves h fun run => ?_
  dsimp only
  split
  · exact moves_withLc (.tested none run (.inr rfl))
  · exact moves_refl s

/-! ### Owner blocks that move the link -/

theorem fetchFills_moves {c : Channel} {p : Packet} {s : State} (maximum : Nat)
    (hd : Delivered .fetchFills c p s) : Moves s (fetchFills maximum c s) :=
  enqueueReply_moves _ hd rfl (withRt_lineView s _)

theorem readRecord_movesLink {c : Channel} {p : Packet} {s : State} (hd : Delivered .readRecord c p s) :
    (withBib (paramOf p) s fun i => readSlot c i s).MovesLink s := by
  unfold withBib
  dsimp only [readSlot]
  repeat' split
  · rfl
  · exact enqueueReply_moves _ hd rfl rfl
  · rfl
  · rfl

theorem readLines_movesLink {c : Channel} {p : Packet} {s : State} (first count : Nat)
    (hd : Delivered .readLines c p s) : (readLines first count c s).MovesLink s := by
  unfold readLines
  split
  · exact enqueueReply_moves _ hd rfl rfl
  · rfl

theorem statusRequest_moves {c : Channel} {p : Packet} {s : State} (hd : Delivered .status c p s) :
    Moves s (statusRequest c s) :=
  moves_congr (enqueueReply_moves _ hd rfl rfl) (withAtt_lineView _ _)

theorem arbitrationSetup_movesLink {c : Channel} {p : Packet} {s : State} (modeCode parkCode : Nat)
    (hd : Delivered .arbitrationSetup c p s) : (arbitrationSetup modeCode parkCode s).MovesLink s := by
  unfold arbitrationSetup
  split
  · exact moves_withLc (.setUp c _ _ hd.1)
  · rfl
  · rfl

theorem putHold_moves (c : Channel) (s : State) : Moves s (putHold c s) := by
  unfold putHold
  split
  · rename_i h
    exact moves_withLc (.holdPut c h.1)
  · exact moves_refl s

theorem running_of_delivered {k : Kind} {c : Channel} {p : Packet} {s : State} (hd : Delivered k c p s) :
    s.resetHeld = false := (hearing_some hd.1).1

theorem channelReset_moves {c : Channel} {s : State} (run : s.resetHeld = false) :
    Moves s (channelReset c s) := ⟨.channelReset c run, rfl, rfl, rfl⟩

theorem crossingReport_keepsLine_of_channel (c : Channel) (bib number : Nat) (s : State) :
    (match readerOf c with
      | some r => crossingReport r bib number s
      | none => Answer.refused .notPermitted s).KeepsLine s := by
  split
  · exact crossingReport_keepsLine _ bib number s
  · rfl

theorem timedCrossingReport_keepsLine_of_channel (c : Channel) (bib x : Nat) (s : State) :
    (match readerOf c with
      | some r => timedCrossingReport r bib x s
      | none => Answer.refused .notPermitted s).KeepsLine s := by
  split
  · exact timedCrossingReport_keepsLine _ bib x s
  · rfl

/-! ### Every command -/

/-- Every command but the two resets moves the link by one of the moves above, and leaves local time, the
RESET level and the queue. -/
theorem exec_moves {i : Instr} {s t : State} (h : exec i s = .next t) (hp : i ≠ .powerOn)
    (hr : i ≠ .resetAsserted) : Moves s t := by
  unfold exec at h
  cases i with
  | powerOn => exact absurd rfl hp
  | resetAsserted => exact absurd rfl hr
  | openPattern => exact execOpenPattern_moves h
  | normalClose tail => exact execNormalClose_moves h
  | turnClose tail => exact execTurnClose_moves h
  | replyBurstEnd => exact execReplyBurstEnd_moves h
  | cut tail => exact execCut_moves h
  | headerBad header => exact execHeaderBad_moves h
  | unknownKind kind p => exact execUnknownKind_moves h
  | requestRaised c => exact execRequestRaised_moves h
  | requestDropped c => exact execRequestDropped_moves h
  | busyRelease => exact execBusyRelease_moves h
  | offerTimerExpiry => exact execOfferTimerExpiry_moves h
  | tenureReached => exact execTenureReached_moves h
  | withdrawalGraceEnd => exact execWithdrawalGraceEnd_moves h
  | holdLimit => exact execHoldLimit_moves h
  | crossingReport p => exact receive_moves_of_keepsLine h (fun c => crossingReport_keepsLine_of_channel c _ _ s)
  | timedCrossingReport p =>
    exact receive_moves_of_keepsLine h (fun c => timedCrossingReport_keepsLine_of_channel c _ _ s)
  | clockSet p => exact receive_moves_of_keepsLine h (fun _ => clockSet_keepsLine _ s)
  | clockStop p => exact receive_moves_of_keepsLine h (fun _ => clockStop_lineView s)
  | clockTrim p => exact receive_moves_of_keepsLine h (fun _ => clockTrim_keepsLine _ s)
  | clockAdvance =>
    refine event_moves_of_lineView h ?_
    repeat' split
    all_goals simp
  | markPulse r => exact event_moves_of_lineView h (markPulse_lineView r s)
  | markExpiry r n =>
    refine event_moves_of_lineView h ?_
    dsimp only
    split <;> simp
  | waveSet p => exact receive_moves_of_keepsLine h (fun _ => waveSet_keepsLine _ _ _ _ _ _ s)
  | gunClear p => exact receive_moves_of_keepsLine h (fun _ => gunClear_keepsLine _ s)
  | passVisit =>
    refine event_moves_of_lineView h ?_
    split <;> simp
  | pointSetup p => exact receive_moves_of_keepsLine h (fun _ => pointSetup_keepsLine _ _ _ _ _ s)
  | rosterFill p => exact receive_moves_of_keepsLine h (fun _ => rosterFill_keepsLine _ _ _ _ _ _ _ s)
  | fetchFills p => exact receive_moves h (fun _ hd => fetchFills_moves _ hd)
  | fillTimeout => exact event_moves_of_lineView h (withRt_lineView s _)
  | pin p => exact receive_moves_of_keepsLine h (fun _ => pinBib_keepsLine _ _ s)
  | unpin p =>
    exact receive_moves_of_keepsLine h (fun _ => withBib_keepsLine fun _ => withRt_lineView s _)
  | readRecord p => exact receive_moves h (fun _ hd => readRecord_movesLink hd)
  | correctPass p => exact receive_moves_of_keepsLine h (fun _ => correctPass_keepsLine _ _ _ s)
  | tableFlush p => exact receive_moves_of_keepsLine h (fun _ => withRt_lineView s _)
  | collect p => exact receive_moves h (fun _ hd => enqueueReply_moves _ hd rfl rfl)
  | release p => exact receive_moves_of_keepsLine h (fun _ => releaseEntries_keepsLine _ s)
  | postMessage p => exact receive_moves_of_keepsLine h (fun _ => postMessage_keepsLine _ _ _ _ _ s)
  | deleteMessage p => exact receive_moves_of_keepsLine h (fun _ => deleteMessage_keepsLine _ s)
  | endFeature p => exact receive_moves_of_keepsLine h (fun _ => endFeature_keepsLine _ s)
  | featureSetup p => exact receive_moves_of_keepsLine h (fun _ => featureSetup_keepsLine _ _ _ _ s)
  | dwellExpiry =>
    refine event_moves_of_lineView h ?_
    split <;> simp
  | minDwellReached =>
    refine event_moves_of_lineView h ?_
    split <;> simp
  | lineExpiry j =>
    refine event_moves_of_lineView h ?_
    dsimp only
    repeat' split
    all_goals simp
  | listTiming p => exact receive_moves_of_keepsLine h (fun _ => listTiming_lineView _ _ _ _ s)
  | raceClear p => exact receive_moves_of_keepsLine h (fun _ => raceClear_lineView s)
  | boardLayout p => exact receive_moves_of_keepsLine h (fun _ => boardLayout_keepsLine _ _ _ s)
  | displayMode p => exact receive_moves_of_keepsLine h (fun _ => displayMode_keepsLine _ s)
  | brightness p => exact receive_moves_of_keepsLine h (fun _ => withBi_lineView s _)
  | dutyTable p => exact receive_moves_of_keepsLine h (fun _ => dutyTable_keepsLine _ s)
  | panelWindow p => exact receive_moves_of_keepsLine h (fun _ => panelWindow_keepsLine _ _ s)
  | scanPeriod p => exact receive_moves_of_keepsLine h (fun _ => withBi_lineView s _)
  | scanStart =>
    refine event_moves_of_lineView h ?_
    split <;> simp
  | frameSent =>
    refine event_moves_of_lineView h ?_
    split <;> simp
  | readLines p => exact receive_moves h (fun _ hd => readLines_movesLink _ _ hd)
  | arbitrationSetup p => exact receive_moves h (fun _ hd => arbitrationSetup_movesLink _ _ hd)
  | status p => exact receive_moves h (fun _ hd => statusRequest_moves hd)
  | attentionMask p => exact receive_moves_of_keepsLine h (fun _ => withAtt_lineView s _)
  | channelReset p => exact receive_moves h (fun _ hd => channelReset_moves (running_of_delivered hd))
  | hold p => exact receive_moves h (fun c _ => putHold_moves c s)
  | releaseHold p =>
    exact receive_moves h (fun c hd => moves_withLc (.holdReleased c (running_of_delivered hd)))

end Sys2Proof.Machine
end

section
/-! Error records and reply queues stay within their bounds at every step (R9, R11); no command moves the queue,
and only the two resets move local time. -/

namespace Sys2Proof.Machine

/-! ### The arbiter leaves the records alone -/

/-- The error records and reply queues of the link. -/
def LinkState.records (l : LinkState) : Vector ErrorRecord 4 × Vector (List Reply) 4 := (l.errors, l.replies)

@[simp] theorem grantDecision_records (now : Nat) (l : LinkState) :
    (grantDecision now l).records = l.records := by
  rw [(grantDecision_eq now l).1]
  rfl

@[simp] theorem settle_records (now : Nat) (l : LinkState) : (settle now l).records = l.records := by
  unfold settle
  repeat' split
  all_goals simp

@[simp] theorem withdraw_records (now : Nat) (c : Channel) (grace : Option Nat) (l : LinkState) :
    (withdraw now c grace l).records = l.records := settle_records now _

@[simp] theorem withdrawalTest_records (now : Nat) (l : LinkState) :
    (withdrawalTest now l).records = l.records := by
  rcases withdrawalTest_eq now l with h | ⟨c, -, -, -, h⟩ <;> simp [h]

@[simp] theorem endExchange_records (now : Nat) (l : LinkState) :
    (endExchange now l).records = l.records := by
  rcases endExchange_eq now l with h | ⟨c, -, -, -, h⟩ <;> simp [h]

@[simp] theorem endHold_records (now : Nat) (c : Channel) (l : LinkState) :
    (endHold now c l).records = l.records := by
  unfold endHold
  repeat' split
  · exact withdrawalTest_records now _
  all_goals rfl

@[simp] theorem requestRaised_records (c : Channel) (now : Nat) (l : LinkState) :
    (requestRaised c now l).records = l.records := by
  unfold requestRaised
  repeat' split
  · exact grantDecision_records now l
  · rfl
  · exact withdraw_records now _ none l
  · rfl
  · exact withdrawalTest_records now l
  · rfl

@[simp] theorem requestDropped_records (c : Channel) (now : Nat) (l : LinkState) :
    (requestDropped c now l).records = l.records := by
  unfold requestDropped
  repeat' split
  all_goals simp

@[simp] theorem busyReleased_records (now : Nat) (l : LinkState) :
    (busyReleased now l).records = l.records := by
  unfold busyReleased
  split <;> simp

@[simp] theorem openBurst_records (now : Nat) (l : LinkState) : (openBurst now l).records = l.records := by
  unfold openBurst
  dsimp only
  split <;> rfl

/-! ### The bounds of the records -/

/-- The records and queues of one link are within their bounds (R9, R11). -/
def BoundsSound (r : Vector ErrorRecord 4 × Vector (List Reply) 4) : Prop :=
  ∀ c : Channel, r.1[c].Sound ∧ r.2[c].length ≤ 4

theorem recordsSound_iff (s : State) : RecordsSound s ↔ BoundsSound s.lc.records :=
  forall_congr' fun _ => and_assoc.symm

theorem boundsSound_kept {e e' : Vector ErrorRecord 4} {q : Vector (List Reply) 4}
    (kept : RecordsKept e e') (h : BoundsSound (e, q)) : BoundsSound (e', q) :=
  fun c => ⟨kept c (h c).1, (h c).2⟩

/-- A reply queue replaced by one within its bound. -/
theorem boundsSound_replies {e : Vector ErrorRecord 4} {q : Vector (List Reply) 4} (c : Channel)
    {l : List Reply} (hl : l.length ≤ 4) (h : BoundsSound (e, q)) : BoundsSound (e, q.set c l) := by
  intro d
  refine ⟨(h d).1, ?_⟩
  show (q.set c l)[d].length ≤ 4
  rw [getElem_set_channel]
  split
  · exact hl
  · exact (h d).2

/-- A channel's record and queue emptied (R12, R22). -/
theorem boundsSound_emptied {e : Vector ErrorRecord 4} {q : Vector (List Reply) 4} (c : Channel)
    (h : BoundsSound (e, q)) : BoundsSound (e.set c ErrorRecord.empty, q.set c []) :=
  boundsSound_replies c (Nat.zero_le 4)
    (boundsSound_kept (recordsKept_set c fun _ => emptyRecord_sound) h)

/-- Every move of the link keeps its records and queues within their bounds. -/
theorem linkMove_boundsSound {s : State} {l : LinkState} (h : LinkMove s l)
    (hs : BoundsSound s.lc.records) : BoundsSound l.records := by
  cases h with
  | stays | inputs | graceOver | setUp | holdPut => exact hs
  | recorded e kept | framingLost _ e _ kept | ignoredEnded e _ kept => exact boundsSound_kept kept hs
  | replied c r room =>
    refine boundsSound_replies c ?_ hs
    rw [List.length_append]
    exact room
  | takenEnded c lost e run taken kept =>
    rw [endExchange_records]
    exact boundsSound_kept kept hs
  | turned c lost e run taken kept => exact boundsSound_emptied c (boundsSound_kept kept hs)
  | lapsed c since e busy run offered kept =>
    rw [withdraw_records]
    exact boundsSound_kept kept hs
  | channelReset c run =>
    rw [endHold_records]
    exact boundsSound_emptied c hs
  | opened => rwa [openBurst_records]
  | replyEnded => rwa [settle_records, endExchange_records]
  | raised => rwa [requestRaised_records]
  | dropped => rwa [requestDropped_records]
  | released => rwa [busyReleased_records]
  | tested => rwa [withdrawalTest_records]
  | holdReleased => rwa [endHold_records]

/-- The records and queues at power-on are empty (R22). -/
theorem linkAtPowerOn_boundsSound (lines : Vector Bool 4) (busy : Bool) :
    BoundsSound (linkAtPowerOn lines busy).records := by
  intro c
  simp [LinkState.records, linkAtPowerOn, emptyRecord_sound]

/-- What a command leaves when it is not a move: the power-on state, after a decision or held. -/
theorem exec_moves_or_resets {i : Instr} {s t : State} (h : exec i s = .next t) :
    Moves s t ∨
      (i = .powerOn ∧ t.pending = s.pending ∧ t.localTime = 0 ∧ t.resetHeld = false ∧
        t.lc = grantDecision 0 (linkAtPowerOn s.lc.requestLine s.lc.masterBusy)) ∨
      (i = .resetAsserted ∧ t.pending = s.pending ∧ t.localTime = 0 ∧ t.resetHeld = true ∧
        t.lc = linkAtPowerOn s.lc.requestLine s.lc.masterBusy) := by
  by_cases hp : i = .powerOn
  · subst hp
    cases h
    exact .inr (.inl ⟨rfl, rfl, rfl, rfl, rfl⟩)
  · by_cases hr : i = .resetAsserted
    · subst hr
      cases h
      exact .inr (.inr ⟨rfl, rfl, rfl, rfl, rfl⟩)
    · exact .inl (exec_moves h hp hr)

theorem exec_recordsSound {i : Instr} {s t : State} (h : exec i s = .next t) (hs : RecordsSound s) :
    RecordsSound t := by
  rw [recordsSound_iff] at hs ⊢
  rcases exec_moves_or_resets h with ⟨move, -⟩ | ⟨-, -, -, -, hlc⟩ | ⟨-, -, -, -, hlc⟩
  · exact linkMove_boundsSound move hs
  · rw [hlc, grantDecision_records]
    exact linkAtPowerOn_boundsSound _ _
  · rw [hlc]
    exact linkAtPowerOn_boundsSound _ _

/-- Local time passing leaves the link and the RESET level alone. -/
theorem passMillisecond_link (s : State) :
    (passMillisecond s).lc = s.lc ∧ (passMillisecond s).resetHeld = s.resetHeld := by
  unfold passMillisecond
  split <;> exact ⟨rfl, rfl⟩

/-- A property of the link and the RESET level that every command keeps is kept by every step. -/
theorem step_keeps_linkProperty {P : LinkState → Bool → Prop}
    (hexec : ∀ i s t, exec i s = .next t → P s.lc s.resetHeld → P t.lc t.resetHeld) {s t : State}
    (h : step s = .next t) (hs : P s.lc s.resetHeld) : P t.lc t.resetHeld := by
  rcases step_cases h with ⟨c, rest, -, h⟩ | ⟨-, e, -, h⟩ | ⟨-, -, rfl⟩
  · exact hexec c _ t h hs
  · exact hexec e s t h hs
  · obtain ⟨hlc, hr⟩ := passMillisecond_link s
    rwa [hlc, hr]

/-- Settles O10: every move of the link keeps its records within their bounds. -/
theorem everyStepKeepsRecordsSound : Obligations.EveryStepKeepsRecordsSound := by
  intro s t hs h
  have hexec : ∀ i s t, exec i s = .next t → BoundsSound s.lc.records → BoundsSound t.lc.records := by
    intro i s t h hs
    rw [← recordsSound_iff] at hs ⊢
    exact exec_recordsSound h hs
  rw [recordsSound_iff] at hs ⊢
  exact step_keeps_linkProperty (P := fun l _ => BoundsSound l.records) hexec h hs

/-- Settles O2: a move of the link keeps the queue and local time. -/
theorem commandsLeaveQueueAndTime : Obligations.CommandsLeaveQueueAndTime := by
  intro i s t h
  rcases exec_moves_or_resets h with ⟨-, time, -, queue⟩ | ⟨rfl, queue, time, -⟩ | ⟨rfl, queue, time, -⟩
  · exact ⟨queue, .inl time⟩
  · exact ⟨queue, .inr ⟨.inl rfl, time⟩⟩
  · exact ⟨queue, .inr ⟨.inr rfl, time⟩⟩

/-- Settles O1: the step's own match on the queue. -/
theorem stepTakesFrontCommand : Obligations.StepTakesFrontCommand := by
  intro c rest s h
  rw [step, h]

end Sys2Proof.Machine
end

section
/-! The arbiter and the line agree at every step (R1, R3, R13 to R20): each move of the link keeps what its grant
state says of the line. -/

namespace Sys2Proof.Machine

/-- The arbiter and the line of one link agree, at a level of RESET (R1, R3, R13 to R20). -/
def LineSound (l : LinkState) (resetHeld : Bool) : Prop :=
  (l.burst.isSome → l.masterBusy = true ∧ l.replyBurst = none) ∧
    (resetHeld = true → l.grant = .idle) ∧ GrantSound l resetHeld l.grant

theorem arbiterSound_iff (s : State) : ArbiterSound s ↔ LineSound s.lc s.resetHeld := Iff.rfl

/-- The agreement does not depend on the records and the reply queues. -/
theorem lineSound_withRecords {l : LinkState} {held : Bool} (e : Vector ErrorRecord 4)
    (q : Vector (List Reply) 4) (h : LineSound l held) :
    LineSound { l with errors := e, replies := q } held := by
  obtain ⟨one, idle, hgs⟩ := h
  refine ⟨one, idle, ?_⟩
  cases hg : l.grant <;> exact hg ▸ hgs

/-! ### What a sound grant state says of an open burst -/

/-- A taken burst is the holder's, in HELD or in the grace of WITHDRAWING (R1, R19). -/
theorem grant_of_taken {l : LinkState} {held : Bool} {c : Channel} {lost : Bool}
    (hb : l.burst = some (.taken c lost)) (h : LineSound l held) :
    (∃ from_, l.grant = .held c from_) ∨ ∃ start, l.grant = .withdrawing c (some start) := by
  obtain ⟨-, -, hg⟩ := h
  cases hgrant : l.grant with
  | idle | parked p | offered d since => simp [GrantSound, hgrant, hb] at hg
  | held d from_ =>
    simp only [GrantSound, hgrant, hb, Option.mem_def, Option.some.injEq, forall_eq', Burst.taken.injEq] at hg
    obtain ⟨⟨_, rfl, -⟩, -⟩ := hg
    exact .inl ⟨from_, rfl⟩
  | withdrawing d grace =>
    simp only [GrantSound, hgrant, hb, Option.mem_def, Option.some.injEq, forall_eq', Burst.taken.injEq,
      reduceCtorEq, false_and, or_false] at hg
    obtain ⟨-, -, -, _, ⟨rfl, -⟩, hgrace⟩ := hg
    obtain ⟨start, rfl⟩ := Option.isSome_iff_exists.mp hgrace
    exact .inr ⟨start, rfl⟩

/-! ### The arbiter's operations -/

/-- Every channel has its turn in the decision (R14). -/
theorem mem_decisionOrder (mode : ArbMode) (last c : Channel) : c ∈ decisionOrder mode last := by
  cases mode <;> revert last c <;> decide

/-- Without a winner no channel asks (R14). -/
theorem requestLine_of_winner_none {l : LinkState} (h : winner l = none) (c : Channel) :
    l.requestLine[c] = false := by
  simpa using List.find?_eq_none.mp h c (mem_decisionOrder l.mode l.lastGranted c)

/-- A grant decision on a line with no exchange and no hold leaves the arbiter in agreement (R14). -/
theorem grantDecision_lineSound (now : Nat) {l : LinkState}
    (burst : l.burst = none ∨ l.burst = some .unheard) (busy : l.burst.isSome → l.masterBusy = true)
    (noReply : l.replyBurst = none) (noHold : l.holdFrom = none) :
    LineSound (grantDecision now l) false := by
  unfold grantDecision
  split
  · rename_i hbusy
    have hmaster : l.masterBusy = true := by simpa [LinkState.busy, noReply] using hbusy
    exact ⟨fun _ => ⟨hmaster, noReply⟩, by simp, burst.imp_right fun h => ⟨h, rfl⟩, noReply, noHold,
      .inr (.inl hmaster)⟩
  · rename_i hbusy
    have hmaster : l.masterBusy = false := by simp_all [LinkState.busy]
    have noBurst : l.burst = none := by simp_all
    have free : l.burst.isSome → l.masterBusy = true ∧ l.replyBurst = none := by simp [noBurst]
    split
    · rename_i c hc
      exact ⟨free, by simp, noBurst, noReply, noHold, hmaster, by simpa [winner] using List.find?_some hc⟩
    · rename_i hw
      have low := requestLine_of_winner_none hw
      split
      · rename_i p hp
        exact ⟨free, by simp, noBurst, noReply, noHold, hmaster, hp, low⟩
      · rename_i hp
        exact ⟨free, by simp, .inl noBurst, noReply, noHold, .inr (.inr ⟨low, hp⟩)⟩

/-- Lowering the grant of `c` leaves the arbiter in agreement when what is on the line is `c`'s (R19). -/
theorem withdraw_lineSound (now : Nat) {c : Channel} {grace : Option Nat} {l : LinkState}
    (one : l.burst.isSome → l.masterBusy = true ∧ l.replyBurst = none)
    (reply : ∀ r ∈ l.replyBurst, r.channel = c)
    (burst : ∀ b ∈ l.burst,
      (∃ lost, b = .taken c lost ∧ grace.isSome) ∨ (b = .afterGrace c ∧ grace = none)) :
    LineSound (withdraw now c grace l) false := by
  rw [withdraw_eq]
  split
  · rename_i hbusy
    exact ⟨one, by simp, hbusy, rfl, reply, burst⟩
  · rename_i hbusy
    simp only [LinkState.busy, Bool.or_eq_true, not_or, Bool.not_eq_true, Option.isSome_eq_false_iff,
      Option.isNone_iff_eq_none] at hbusy
    have noBurst : l.burst = none := by
      by_contra hb
      have := (one (Option.isSome_iff_ne_none.mpr hb)).1
      simp_all
    exact grantDecision_lineSound now (.inl noBurst) (by simp [noBurst]) hbusy.2 rfl

/-- WITHDRAWING with no exchange going on ends on a free line, else it stays (R19). -/
theorem settle_lineSound (now : Nat) {l : LinkState} (noBurst : l.burst = none) (noHold : l.holdFrom = none)
    {c : Channel} {grace : Option Nat} (hg : l.grant = .withdrawing c grace)
    (reply : ∀ r ∈ l.replyBurst, r.channel = c) : LineSound (settle now l) false := by
  simp only [settle, hg]
  split
  · rename_i hbusy
    refine ⟨by simp [noBurst], by simp, ?_⟩
    rw [hg]
    exact ⟨hbusy, noHold, reply, by simp [noBurst]⟩
  · rename_i hbusy
    have noReply : l.replyBurst = none := by simp_all [LinkState.busy]
    exact grantDecision_lineSound now (.inl noBurst) (by simp [noBurst]) noReply noHold

/-- The withdrawal test keeps the agreement (R17, R19). -/
theorem withdrawalTest_lineSound (now : Nat) {l : LinkState} (h : LineSound l false) :
    LineSound (withdrawalTest now l) false := by
  rcases withdrawalTest_eq now l with ht | ⟨c, from_, hg, -, ht⟩
  · rwa [ht]
  · obtain ⟨one, -, hgs⟩ := h
    rw [hg] at hgs
    obtain ⟨burst, reply, -⟩ := hgs
    rw [ht]
    exact withdraw_lineSound now one reply fun b hb =>
      .inl ((burst b hb).imp fun lost hlost => ⟨hlost, rfl⟩)

/-- Ending the hold keeps the agreement: no grant state asks for one (R20). -/
theorem lineSound_noHold {l : LinkState} {held : Bool} (h : LineSound l held) :
    LineSound { l with holdFrom := none } held := by
  obtain ⟨one, idle, hgs⟩ := h
  refine ⟨one, idle, ?_⟩
  cases hg : l.grant <;> simp_all [GrantSound, LinkState.busy]

/-- A grant decision leaves no WITHDRAWING to settle (R14). -/
theorem settle_grantDecision (now : Nat) (l : LinkState) :
    settle now (grantDecision now l) = grantDecision now l := by
  obtain ⟨-, h | ⟨p, h, -⟩ | ⟨c, h, -⟩⟩ := grantDecision_eq now l <;> simp [settle, h]

/-- What has settled stays as it is (R19). -/
theorem settle_settle (now : Nat) (l : LinkState) : settle now (settle now l) = settle now l := by
  cases hg : l.grant with
  | idle | parked p | offered c since | held c from_ => simp [settle, hg]
  | withdrawing c grace =>
    by_cases hb : l.busy = true
    · simp [settle, hg, hb]
    · have : settle now l = grantDecision now l := by simp [settle, hg, hb]
      rw [this, settle_grantDecision]

/-- The end of a holder's exchange leaves nothing to settle (R18, R19). -/
theorem settle_endExchange_of_held (now : Nat) {l : LinkState} {c : Channel} {from_ : Nat}
    (hg : l.grant = .held c from_) : settle now (endExchange now l) = endExchange now l := by
  rcases endExchange_eq now l with h | ⟨d, -, -, -, h⟩
  · rw [h]
    simp [settle, hg]
  · rw [h]
    exact settle_settle now _

theorem endHold_lineSound (now : Nat) (c : Channel) {l : LinkState} (h : LineSound l false) :
    LineSound (endHold now c l) false := by
  unfold endHold
  repeat' split
  · exact withdrawalTest_lineSound now (lineSound_noHold h)
  all_goals exact h

/-- The exchange of the holder over: HELD while its request line is up, else its grant is lowered (R18). -/
theorem endExchange_lineSound_of_held (now : Nat) {l : LinkState} {c : Channel} {from_ : Nat}
    (hg : l.grant = .held c from_) (noBurst : l.burst = none) (noReply : l.replyBurst = none) :
    LineSound (endExchange now l) false := by
  simp only [endExchange, hg]
  split
  · rename_i hr
    refine ⟨by simp [noBurst], by simp, ?_⟩
    rw [hg]
    exact ⟨by simp [noBurst], by simp [noReply], .inl hr⟩
  · exact withdraw_lineSound now (by simp [noBurst]) (by simp [noReply]) (by simp [noBurst])

/-! ### Each move -/

theorem openBurst_lineSound (now : Nat) {l : LinkState} (noBurst : l.burst = none)
    (noReply : l.replyBurst = none) (h : LineSound l false) : LineSound (openBurst now l) false := by
  obtain ⟨-, -, hgs⟩ := h
  cases hg : l.grant with
  | idle => simp_all [openBurst, LineSound, GrantSound]
  | parked p => simp_all [openBurst, LineSound, GrantSound]
  | offered c since => simp_all [openBurst, LineSound, GrantSound]
  | held c from_ => simp_all [openBurst, LineSound, GrantSound]
  | withdrawing c grace =>
    cases grace <;> simp_all [openBurst, LineSound, GrantSound, LinkState.busy]

theorem takenEnded_lineSound (now : Nat) {l : LinkState} {c : Channel} {lost : Bool}
    (e : Vector ErrorRecord 4) (hb : l.burst = some (.taken c lost)) (h : LineSound l false) :
    LineSound (endExchange now { l with burst := none, errors := e }) false := by
  obtain ⟨hmaster, noReply⟩ := h.1 (by simp [hb])
  rcases grant_of_taken hb h with ⟨from_, hg⟩ | ⟨start, hg⟩
  · exact endExchange_lineSound_of_held now (c := c) (from_ := from_) hg rfl noReply
  · obtain ⟨-, -, hgs⟩ := h
    simp_all [endExchange, LineSound, GrantSound, LinkState.busy]

theorem turnaround_lineSound {l : LinkState} {c : Channel} {lost : Bool} (e : Vector ErrorRecord 4)
    (hb : l.burst = some (.taken c lost)) (h : LineSound l false) :
    LineSound (turnaround c { l with errors := e }) false := by
  rcases grant_of_taken hb h with ⟨from_, hg⟩ | ⟨start, hg⟩
  · simp [turnaround, LineSound, GrantSound, hg]
  · obtain ⟨-, -, hgs⟩ := h
    simp_all [turnaround, LineSound, GrantSound, LinkState.busy]

theorem ignoredEnded_lineSound {l : LinkState} {held : Bool} (e : Vector ErrorRecord 4)
    (hb : ∀ c lost, l.burst ≠ some (.taken c lost)) (h : LineSound l held) :
    LineSound { l with burst := none, errors := e } held := by
  obtain ⟨-, idle, hgs⟩ := h
  refine ⟨by simp, idle, ?_⟩
  cases hg : l.grant with
  | idle | parked p | offered c since => simp_all [GrantSound]
  | held c from_ =>
    rw [hg] at hgs
    obtain ⟨burst, reply, exchange⟩ := hgs
    have noBurst : l.burst = none := by
      by_contra hne
      obtain ⟨b, hbs⟩ := Option.ne_none_iff_exists'.mp hne
      obtain ⟨lost, rfl⟩ := burst b hbs
      exact hb c lost hbs
    exact ⟨by simp, reply, by simpa [noBurst] using exchange⟩
  | withdrawing c grace =>
    rw [hg] at hgs
    obtain ⟨busy, noHold, reply, -⟩ := hgs
    exact ⟨busy, noHold, reply, by simp⟩

theorem replyEnded_lineSound (now : Nat) {l : LinkState} (sending : l.replyBurst.isSome)
    (h : LineSound l false) :
    LineSound (settle now (endExchange now { l with replyBurst := none })) false := by
  obtain ⟨one, -, hgs⟩ := h
  have noBurst : l.burst = none := by
    by_contra hb
    have := (one (Option.isSome_iff_ne_none.mpr hb)).2
    simp [this] at sending
  cases hg : l.grant with
  | idle | parked p | offered c since => simp_all [GrantSound]
  | held c from_ =>
    rw [settle_endExchange_of_held now (c := c) (from_ := from_) rfl]
    exact endExchange_lineSound_of_held now (c := c) (from_ := from_) rfl noBurst rfl
  | withdrawing c grace =>
    rw [hg] at hgs
    obtain ⟨-, noHold, -⟩ := hgs
    simp only [endExchange]
    exact settle_lineSound now (c := c) (grace := grace) noBurst noHold rfl (by simp)

theorem requestRaised_lineSound (c : Channel) (now : Nat) {l : LinkState} (h : LineSound l false) :
    LineSound (requestRaised c now { l with requestLine := l.requestLine.set c true }) false := by
  obtain ⟨one, idle, hgs⟩ := h
  have raised (d : Channel) (hd : l.requestLine[d] = true) : (l.requestLine.set c true)[d] = true := by
    rw [getElem_set_channel]
    split
    · rfl
    · exact hd
  cases hg : l.grant with
  | idle =>
    rw [hg] at hgs
    obtain ⟨burst, noReply, noHold, -⟩ := hgs
    simp only [requestRaised]
    exact grantDecision_lineSound now (burst.imp_right And.left) (fun hb => (one hb).1) noReply noHold
  | parked p =>
    rw [hg] at hgs
    obtain ⟨noBurst, noReply, noHold, -⟩ := hgs
    simp only [requestRaised]
    split
    · rename_i hp
      subst hp
      exact ⟨one, by simp, by simp [noBurst], by simp [noReply], .inl (by simp)⟩
    · exact withdraw_lineSound now one (by simp [noReply]) (by simp [noBurst])
  | offered d since =>
    rw [hg] at hgs
    obtain ⟨noBurst, noReply, noHold, free, asked⟩ := hgs
    exact ⟨one, by simp [requestRaised], noBurst, noReply, noHold, free, raised d asked⟩
  | held d from_ =>
    rw [hg] at hgs
    obtain ⟨burst, reply, exchange⟩ := hgs
    exact withdrawalTest_lineSound now ⟨one, by simp, burst, reply, exchange.imp_left (raised d)⟩
  | withdrawing d grace =>
    rw [hg] at hgs
    exact ⟨one, by simp [requestRaised], hgs⟩

theorem requestDropped_lineSound (c : Channel) (now : Nat) {l : LinkState} (h : LineSound l false) :
    LineSound (requestDropped c now { l with requestLine := l.requestLine.set c false }) false := by
  obtain ⟨one, idle, hgs⟩ := h
  have low (d : Channel) (hd : l.requestLine[d] = false) : (l.requestLine.set c false)[d] = false := by
    rw [getElem_set_channel]
    split
    · rfl
    · exact hd
  have others (d : Channel) (hd : d ≠ c) : (l.requestLine.set c false)[d] = l.requestLine[d] := by
    rw [getElem_set_channel, if_neg hd]
  cases hg : l.grant with
  | idle =>
    rw [hg] at hgs
    obtain ⟨burst, noReply, noHold, quiet⟩ := hgs
    exact ⟨one, by simp [requestDropped], burst, noReply, noHold,
      quiet.imp_right (Or.imp_right (And.imp_left fun h d => low d (h d)))⟩
  | parked p =>
    rw [hg] at hgs
    obtain ⟨noBurst, noReply, noHold, free, park, quiet⟩ := hgs
    exact ⟨one, by simp [requestDropped], noBurst, noReply, noHold, free, park, fun d => low d (quiet d)⟩
  | offered d since =>
    rw [hg] at hgs
    obtain ⟨noBurst, noReply, noHold, free, asked⟩ := hgs
    simp only [requestDropped]
    split
    · exact withdraw_lineSound now one (by simp [noReply]) (by simp [noBurst])
    · rename_i hd
      exact ⟨one, by simp, noBurst, noReply, noHold, free, (others d hd).trans asked⟩
  | held d from_ =>
    rw [hg] at hgs
    obtain ⟨burst, reply, exchange⟩ := hgs
    simp only [requestDropped]
    repeat' split
    · rename_i hin
      refine endHold_lineSound now c ⟨one, by simp, burst, reply, .inr ?_⟩
      simpa [LinkState.inExchange] using hin
    · rename_i hout
      simp only [LinkState.inExchange, Bool.or_eq_true, not_or, Bool.not_eq_true, Option.isSome_eq_false_iff,
        Option.isNone_iff_eq_none] at hout
      obtain ⟨noBurst, noReply⟩ := hout
      exact withdraw_lineSound now one (by simp [noReply]) (by simp [noBurst])
    · rename_i hd
      refine ⟨one, by simp, burst, reply, exchange.imp_left fun h => (others d hd).trans h⟩
  | withdrawing d grace =>
    rw [hg] at hgs
    exact ⟨one, by simp [requestDropped], hgs⟩

theorem busyReleased_lineSound (now : Nat) {l : LinkState} (noBurst : l.burst = none)
    (h : LineSound l false) : LineSound (busyReleased now { l with masterBusy := false }) false := by
  obtain ⟨-, -, hgs⟩ := h
  have one : l.burst.isSome → false = true ∧ l.replyBurst = none := by simp [noBurst]
  cases hg : l.grant with
  | idle =>
    rw [hg] at hgs
    obtain ⟨-, noReply, noHold, -⟩ := hgs
    exact grantDecision_lineSound now (.inl noBurst) (by simp [noBurst]) noReply noHold
  | parked p =>
    rw [hg] at hgs
    obtain ⟨-, noReply, noHold, -, park⟩ := hgs
    exact ⟨one, by simp [busyReleased], noBurst, noReply, noHold, rfl, park⟩
  | offered c since =>
    rw [hg] at hgs
    obtain ⟨-, noReply, noHold, -, asked⟩ := hgs
    exact ⟨one, by simp [busyReleased], noBurst, noReply, noHold, rfl, asked⟩
  | held c from_ =>
    rw [hg] at hgs
    exact ⟨one, by simp [busyReleased], hgs⟩
  | withdrawing c grace =>
    rw [hg] at hgs
    obtain ⟨-, noHold, reply, -⟩ := hgs
    exact settle_lineSound now (c := c) (grace := grace) noBurst noHold rfl reply

theorem lapsed_lineSound (now : Nat) {l : LinkState} {c : Channel} {since : Nat} (e : Vector ErrorRecord 4)
    (busy : Bool) (hg : l.grant = .offered c since) (h : LineSound l false) :
    LineSound (withdraw now c none { l with errors := e, masterBusy := busy }) false := by
  obtain ⟨-, -, hgs⟩ := h
  rw [hg] at hgs
  obtain ⟨noBurst, noReply, -⟩ := hgs
  exact withdraw_lineSound now (by simp [noBurst]) (by simp [noReply]) (by simp [noBurst])

theorem graceOver_lineSound {l : LinkState} {held : Bool} {c : Channel} {grace : Option Nat}
    (hg : l.grant = .withdrawing c grace) (h : LineSound l held) :
    LineSound { l with grant := .withdrawing c none, burst := burstAfterGrace l.burst } held := by
  obtain ⟨one, idle, hgs⟩ := h
  rw [hg] at hgs idle
  obtain ⟨busy, noHold, reply, burst⟩ := hgs
  refine ⟨fun hb => one ?_, fun hr => (nomatch idle hr), busy, noHold, reply, ?_⟩
  · cases hb' : l.burst with
    | none => simp [hb', burstAfterGrace] at hb
    | some b => rfl
  · intro b hb
    cases hb' : l.burst with
    | none => simp [hb', burstAfterGrace] at hb
    | some b' =>
      rcases burst b' hb' with ⟨lost, rfl, -⟩ | ⟨rfl, -⟩ <;>
        exact .inr ⟨by simpa [hb', burstAfterGrace, eq_comm] using hb, rfl⟩

/-- In a heard burst the park channel is not named by the grant state (R21). -/
theorem setUp_lineSound {l : LinkState} {held : Bool} {c : Channel} {lost : Bool} (mode : ArbMode)
    (park : Option Channel) (hb : l.burst = some (.taken c lost)) (h : LineSound l held) :
    LineSound { l with mode, park } held := by
  have hgrant := grant_of_taken hb h
  obtain ⟨one, idle, hgs⟩ := h
  refine ⟨one, idle, ?_⟩
  rcases hgrant with ⟨from_, hg⟩ | ⟨start, hg⟩ <;>
  · simp only [hg] at hgs ⊢
    exact hgs

/-- Losing the framing of a taken burst keeps whose it is (R6). -/
theorem framingLost_lineSound {l : LinkState} {held : Bool} {c : Channel} (e : Vector ErrorRecord 4)
    (hb : l.burst = some (.taken c false)) (h : LineSound l held) :
    LineSound { l with burst := some (.taken c true), errors := e } held := by
  have hgrant := grant_of_taken hb h
  obtain ⟨one, idle, hgs⟩ := h
  refine ⟨fun _ => one (by simp [hb]), idle, ?_⟩
  rcases hgrant with ⟨from_, hg⟩ | ⟨start, hg⟩ <;>
    simp_all [GrantSound, LinkState.busy]

theorem holdPut_lineSound {l : LinkState} {held : Bool} {c : Channel} (start : Nat)
    (holder : isHolder c l.grant = true) (h : LineSound l held) :
    LineSound { l with holdFrom := some start } held := by
  obtain ⟨one, idle, hgs⟩ := h
  refine ⟨one, idle, ?_⟩
  cases hg : l.grant with
  | held d from_ =>
    rw [hg] at hgs
    exact hgs
  | idle | parked p | offered d since | withdrawing d grace => simp [hg, isHolder] at holder

/-- While RESET is asserted the input lines may take any level (R171). -/
theorem inputs_lineSound {l : LinkState} (lines : Vector Bool 4) (busy : Bool) (h : LineSound l true) :
    LineSound { l with requestLine := lines, masterBusy := busy } true := by
  obtain ⟨-, idle, hgs⟩ := h
  have hg := idle rfl
  rw [hg] at hgs
  obtain ⟨burst, noReply, noHold, -⟩ := hgs
  have noBurst : l.burst = none := by simpa using burst
  refine ⟨by simp [noBurst], fun _ => hg, ?_⟩
  simp only [hg]
  exact ⟨.inl noBurst, noReply, noHold, .inl rfl⟩

/-- Every move of the link keeps the arbiter and the line in agreement. -/
theorem linkMove_lineSound {s : State} {l : LinkState} (h : LinkMove s l)
    (hs : LineSound s.lc s.resetHeld) : LineSound l s.resetHeld := by
  cases h with
  | stays => exact hs
  | inputs lines busy held =>
    rw [held] at hs ⊢
    exact inputs_lineSound lines busy hs
  | recorded e kept => exact lineSound_withRecords e _ hs
  | framingLost c e heard kept => exact framingLost_lineSound e (hearing_some heard).2 hs
  | replied c r room => exact lineSound_withRecords _ _ hs
  | opened run noBurst noReply =>
    rw [run] at hs ⊢
    exact openBurst_lineSound _ noBurst noReply hs
  | takenEnded c lost e run taken kept =>
    rw [run] at hs ⊢
    exact takenEnded_lineSound _ e taken hs
  | turned c lost e run taken kept =>
    rw [run] at hs ⊢
    exact turnaround_lineSound e taken hs
  | ignoredEnded e ignored kept => exact ignoredEnded_lineSound e ignored hs
  | replyEnded run sending =>
    rw [run] at hs ⊢
    exact replyEnded_lineSound _ sending hs
  | raised c run low =>
    rw [run] at hs ⊢
    exact requestRaised_lineSound c _ hs
  | dropped c run high =>
    rw [run] at hs ⊢
    exact requestDropped_lineSound c _ hs
  | released run noBurst =>
    rw [run] at hs ⊢
    exact busyReleased_lineSound _ noBurst hs
  | lapsed c since e busy run offered kept =>
    rw [run] at hs ⊢
    exact lapsed_lineSound _ e busy offered hs
  | tested hold run ended =>
    rw [run] at hs ⊢
    rcases ended with rfl | rfl
    · exact withdrawalTest_lineSound _ hs
    · exact withdrawalTest_lineSound _ (lineSound_noHold hs)
  | graceOver c grace withdrawing => exact graceOver_lineSound withdrawing hs
  | setUp c mode park heard => exact setUp_lineSound mode park (hearing_some heard).2 hs
  | holdPut c holder => exact holdPut_lineSound _ holder hs
  | holdReleased c run =>
    rw [run] at hs ⊢
    exact endHold_lineSound _ c hs
  | channelReset c run =>
    rw [run] at hs ⊢
    exact endHold_lineSound _ c (lineSound_withRecords _ _ hs)

theorem exec_lineSound (i : Instr) (s t : State) (h : exec i s = .next t)
    (hs : LineSound s.lc s.resetHeld) : LineSound t.lc t.resetHeld := by
  rcases exec_moves_or_resets h with ⟨move, -, reset, -⟩ | ⟨-, -, -, reset, hlc⟩ | ⟨-, -, -, reset, hlc⟩
  · rw [reset]
    exact linkMove_lineSound move hs
  · rw [reset, hlc]
    exact grantDecision_lineSound 0 (.inl rfl) (by simp [linkAtPowerOn]) rfl rfl
  · rw [reset, hlc]
    exact ⟨by simp [linkAtPowerOn], fun _ => rfl, .inl rfl, rfl, rfl, .inl rfl⟩

/-- Settles O19: every move of the link keeps the agreement of arbiter and line, and so do the two resets. -/
theorem everyStepKeepsArbiterSound : Obligations.EveryStepKeepsArbiterSound := by
  intro s t hs h
  rw [arbiterSound_iff] at hs ⊢
  exact step_keeps_linkProperty exec_lineSound h hs

end Sys2Proof.Machine
end

section
/-! Victim choice finds a victim on every sound state, so no command stops the device (R68). -/

namespace Sys2Proof.Machine

/-! ### Counting references -/

/-- Levels rise strictly from the shown feature down the stack, so at most 8 features are there (R128). -/
theorem shownAndStack_length_le {s : State} (h : BandSound s) : s.fc.shownAndStack.length ≤ 8 := by
  obtain ⟨levels, -⟩ := h
  have hnodup : (s.fc.shownAndStack.map fun g => g.level).Nodup := by
    rw [List.Nodup, List.pairwise_map]
    exact levels.imp fun hlt => ne_of_lt hlt
  simpa using hnodup.length_le_card

/-- Eight runner queues of at most 4 entries, and at most 8 features (R120, R128). -/
theorem featureSlots_length_le {s : State} (hq : ∀ k : Level, s.fc.queues[k].length ≤ 4)
    (h : BandSound s) : (featureSlots s.fc).length ≤ 40 := by
  have hfeatures : (s.fc.shownAndStack.filterMap Feature.slotOf).length ≤ 8 :=
    (List.length_filterMap_le _ _).trans (shownAndStack_length_le h)
  have hqueues : (s.fc.queues.toList.flatMap fun q => q.map fun e => e.slot).length ≤ 32 := by
    rw [List.length_flatMap]
    refine (List.sum_le_card_nsmul _ 4 ?_).trans (by simp)
    intro n hn
    obtain ⟨q, hmem, rfl⟩ := List.mem_map.mp hn
    obtain ⟨k, hk, rfl⟩ := Vector.getElem_of_mem (Vector.mem_toList_iff.mp hmem)
    simpa using hq ⟨k, hk⟩
  rw [featureSlots, List.length_append]
  omega

/-- At most 12 list lines and 64 queue entries (R139, R142). -/
theorem listSlots_length_le {s : State} (hq : s.ls.queue.length ≤ 64) (hb : s.ls.buffers.length ≤ 12) :
    (listSlots s.ls).length ≤ 76 := by
  have := List.length_filterMap_le (fun b : Option ListLine => b.map fun line => line.slot) s.ls.buffers
  rw [listSlots, List.length_append, List.length_map]
  omega

/-- A list of distinct slots, all of them in another list, is no longer than it. -/
theorem length_filter_finRange_le {p : Slot → Bool} {l : List Slot} (h : ∀ i, p i = true → i ∈ l) :
    ((List.finRange 256).filter p).length ≤ l.length := by
  refine (List.subperm_of_subset ((List.nodup_finRange 256).filter p) ?_).length_le
  intro i hi
  exact h i (List.mem_filter.mp hi).2

/-- At most 116 slots are held: each by a reference of the list or of the band (R66). -/
theorem heldCount_le {s : State} (h : ReferencesSound s) :
    ((List.finRange 256).filter s.rt.isHeld).length ≤ 116 := by
  obtain ⟨⟨hqueue, -⟩, ⟨hqueues, -⟩, hband, hboard, hholds, -⟩ := h
  obtain ⟨hlines, -, -, hbuffers, -⟩ := hboard
  have hlist := listSlots_length_le hqueue (by omega)
  have hfeature := featureSlots_length_le hqueues hband
  refine (length_filter_finRange_le (l := listSlots s.ls ++ featureSlots s.fc) ?_).trans ?_
  · intro i hi
    have hpos : 0 < s.rt.holds[i] := by simpa [RunnerTable.isHeld] using hi
    rw [hholds i, ← List.count_append] at hpos
    exact List.count_pos_iff.mp hpos
  · rw [List.length_append]
    omega

/-- Pinned and held slots cover at most 148 of the 256, so victim choice finds one (R68). -/
theorem victim_of_allocationSound {s : State} (h : AllocationSound s) : ∃ i, s.rt.victim = some i := by
  obtain ⟨horder, ⟨-, ⟨hpins, -⟩, -⟩, hrefs⟩ := h
  by_contra hnone
  have hvictim : s.rt.victim = none := by simpa [Option.eq_none_iff_forall_ne_some] using hnone
  have hall (i : Slot) : s.rt.isPinned i = true ∨ s.rt.isHeld i = true :=
    victim_none hvictim i (horder.mem_iff.mpr (List.mem_finRange i))
  have hcover : (List.finRange 256).length ≤
      ((List.finRange 256).filter s.rt.isPinned ++ (List.finRange 256).filter s.rt.isHeld).length := by
    refine (List.subperm_of_subset (List.nodup_finRange 256) ?_).length_le
    intro i hi
    simpa [hi] using hall i
  have hheld := heldCount_le hrefs
  rw [List.length_append, List.length_finRange] at hcover
  unfold RunnerTable.pinnedCount at hpins
  omega

/-! ### Answers that are no stop -/

/-- An owner block's answer is not the model's stop. -/
def Answer.CarriedOut : Answer → Prop
  | .done _ => True
  | .refused _ _ => True
  | .stop _ => False

@[simp] theorem carriedOut_done (t : State) : (Answer.done t).CarriedOut := trivial
@[simp] theorem carriedOut_refused (r : Reason) (t : State) : (Answer.refused r t).CarriedOut := trivial

/-- An event always answers a next state. -/
theorem event_next (s : State) (f : State → State) : ∃ t, event s f = .next t := by
  unfold event
  split <;> exact ⟨_, rfl⟩

/-- A packet answers a next state when its owner block does not stop. -/
theorem receive_next {k : Kind} {p : Packet} {owner : Channel → State → Answer} {s : State}
    (h : ∀ c, (owner c s).CarriedOut) : ∃ t, receive k p owner s = .next t := by
  unfold receive
  repeat' split
  · exact ⟨_, rfl⟩
  · exact ⟨_, rfl⟩
  · exact ⟨_, rfl⟩
  · exact ⟨_, rfl⟩
  · exact ⟨_, rfl⟩
  · rename_i f hstop
    exact (hstop ▸ h _).elim

/-- With a victim every allocation succeeds (R70). -/
theorem allocate_ne_none {t : RunnerTable} (h : ∃ i, t.victim = some i) (r : Record) :
    t.allocate r ≠ none := by
  obtain ⟨i, hi⟩ := h
  simp [RunnerTable.allocate, hi]

theorem crossingSlot_ne_none {s : State} (h : ∃ i, s.rt.victim = some i) (bib : Nat) :
    crossingSlot bib s ≠ none := by
  unfold crossingSlot allocateForCrossing
  repeat' split
  · simp
  · rename_i hnone
    exact absurd hnone (allocate_ne_none h _)
  · simp
  · simp

theorem crossing_carriedOut {s : State} (h : ∃ i, s.rt.victim = some i) (reader : Reader) (timed : Bool)
    (bib x : Nat) : (crossing reader timed bib x s).CarriedOut := by
  unfold crossing
  repeat' split
  · trivial
  · rename_i hnone
    exact absurd hnone (crossingSlot_ne_none h bib)
  · trivial

theorem crossingReport_carriedOut {s : State} (h : ∃ i, s.rt.victim = some i) (r : Reader)
    (bib number : Nat) : (crossingReport r bib number s).CarriedOut := by
  unfold crossingReport
  split
  · trivial
  · exact crossing_carriedOut (s := s.withMarks r _) h r false bib _

theorem timedCrossingReport_carriedOut {s : State} (h : ∃ i, s.rt.victim = some i) (r : Reader)
    (bib x : Nat) : (timedCrossingReport r bib x s).CarriedOut := by
  unfold timedCrossingReport
  repeat' split
  · trivial
  · trivial
  · exact crossing_carriedOut h r true bib x

theorem rosterFill_carriedOut {s : State} (h : ∃ i, s.rt.victim = some i) (bib : Nat) (flag : Bool)
    (nameLength wave distance time : Nat) (name : List Byte) :
    (rosterFill bib flag nameLength wave distance time name s).CarriedOut := by
  have hpreload (f : FillFields) : (preload bib f s).CarriedOut := by
    unfold preload
    split
    · trivial
    · rename_i hnone
      exact absurd hnone (allocate_ne_none h _)
  unfold rosterFill
  repeat' split
  · trivial
  · trivial
  · trivial
  · exact hpreload _
  · trivial

theorem pinBib_carriedOut {s : State} (h : ∃ i, s.rt.victim = some i) (bib level : Nat) :
    (pinBib bib level s).CarriedOut := by
  have habsent (k : Level) : (pinAbsent bib k s).CarriedOut := by
    unfold pinAbsent
    split
    · trivial
    · rename_i hnone
      exact absurd hnone (allocate_ne_none h _)
  unfold pinBib
  repeat' split
  · trivial
  · trivial
  · trivial
  · trivial
  · trivial
  · exact habsent _
  · trivial

theorem withBib_carriedOut {bib : Nat} {s : State} {act : Slot → Answer} (h : ∀ i, (act i).CarriedOut) :
    (withBib bib s act).CarriedOut := by
  unfold withBib
  repeat' split
  · trivial
  · exact h _
  · trivial

theorem readSlot_carriedOut (c : Channel) (i : Slot) (s : State) : (readSlot c i s).CarriedOut := by
  unfold readSlot
  split <;> trivial

theorem correctPass_carriedOut (bib code : Nat) (tick : Option Nat) (s : State) :
    (correctPass bib code tick s).CarriedOut := by
  unfold correctPass
  repeat' split
  · trivial
  · trivial
  · exact withBib_carriedOut fun _ => trivial
  · trivial

theorem clockSet_carriedOut (tick : Nat) (s : State) : (clockSet tick s).CarriedOut := by
  unfold clockSet
  repeat' split
  all_goals trivial

theorem clockTrim_carriedOut (amount : Int) (s : State) : (clockTrim amount s).CarriedOut := by
  unfold clockTrim
  dsimp only
  repeat' split
  all_goals trivial

theorem waveSet_carriedOut (wave rangeCode first last gunCode tick : Nat) (s : State) :
    (waveSet wave rangeCode first last gunCode tick s).CarriedOut := by
  unfold waveSet
  repeat' split
  all_goals trivial

theorem gunClear_carriedOut (wave : Nat) (s : State) : (gunClear wave s).CarriedOut := by
  unfold gunClear
  split <;> trivial

theorem pointSetup_carriedOut (l d1 d2 g w : Nat) (s : State) :
    (pointSetup l d1 d2 g w s).CarriedOut := by
  unfold pointSetup
  repeat' split
  all_goals trivial

theorem releaseEntries_carriedOut (n : Half) (s : State) : (releaseEntries n s).CarriedOut := by
  unfold releaseEntries
  split <;> trivial

theorem postMessage_carriedOut (message level duration lineCount : Nat) (text : List Byte) (s : State) :
    (postMessage message level duration lineCount text s).CarriedOut := by
  unfold postMessage
  repeat' split
  all_goals trivial

theorem deleteMessage_carriedOut (message : Nat) (s : State) : (deleteMessage message s).CarriedOut := by
  unfold deleteMessage
  split <;> trivial

theorem endFeature_carriedOut (code : Nat) (s : State) : (endFeature code s).CarriedOut := by
  unfold endFeature endLevel
  repeat' split
  all_goals trivial

theorem featureSetup_carriedOut (modeCode : Nat) (mask : BitVec 8) (leaderCode dwell : Nat) (s : State) :
    (featureSetup modeCode mask leaderCode dwell s).CarriedOut := by
  unfold featureSetup
  repeat' split
  all_goals trivial

theorem boardLayout_carriedOut (n b wave : Nat) (s : State) : (boardLayout n b wave s).CarriedOut := by
  unfold boardLayout
  repeat' split
  all_goals trivial

theorem displayMode_carriedOut (code : Nat) (s : State) : (displayMode code s).CarriedOut := by
  unfold displayMode
  split <;> trivial

theorem dutyTable_carriedOut (entries : Vector Byte 16) (s : State) : (dutyTable entries s).CarriedOut := by
  unfold dutyTable
  split <;> trivial

theorem panelWindow_carriedOut (number : Nat) (w : Option Window) (s : State) :
    (panelWindow number w s).CarriedOut := by
  unfold panelWindow
  repeat' split
  all_goals trivial

theorem readLines_carriedOut (first count : Nat) (c : Channel) (s : State) :
    (readLines first count c s).CarriedOut := by
  unfold readLines
  split <;> trivial

theorem arbitrationSetup_carriedOut (modeCode parkCode : Nat) (s : State) :
    (arbitrationSetup modeCode parkCode s).CarriedOut := by
  unfold arbitrationSetup
  split <;> trivial

/-! ### Every command -/

/-- With a victim to choose every command answers a next state. -/
theorem exec_next {s : State} (h : ∃ i, s.rt.victim = some i) (i : Instr) : ∃ t, exec i s = .next t := by
  unfold exec
  cases i with
  | powerOn | resetAsserted => exact ⟨_, rfl⟩
  | openPattern =>
    dsimp only [execOpenPattern]
    repeat' split
    all_goals exact ⟨_, rfl⟩
  | headerBad header =>
    dsimp only [execHeaderBad]
    repeat' split
    all_goals exact ⟨_, rfl⟩
  | unknownKind kind p =>
    dsimp only [execUnknownKind]
    repeat' split
    all_goals exact ⟨_, rfl⟩
  | requestRaised c =>
    dsimp only [execRequestRaised]
    split
    · exact ⟨_, rfl⟩
    · exact event_next _ _
  | requestDropped c =>
    dsimp only [execRequestDropped]
    split
    · exact event_next _ _
    · exact ⟨_, rfl⟩
  | busyRelease =>
    dsimp only [execBusyRelease]
    split
    · exact ⟨_, rfl⟩
    · exact event_next _ _
  | normalClose | turnClose | replyBurstEnd | cut | offerTimerExpiry | tenureReached | withdrawalGraceEnd
  | holdLimit | clockAdvance | markPulse | markExpiry | passVisit | fillTimeout | dwellExpiry
  | minDwellReached | lineExpiry | scanStart | frameSent => exact event_next s _
  | crossingReport p =>
    refine receive_next fun c => ?_
    split
    · exact crossingReport_carriedOut h _ _ _
    · trivial
  | timedCrossingReport p =>
    refine receive_next fun c => ?_
    split
    · exact timedCrossingReport_carriedOut h _ _ _
    · trivial
  | rosterFill p => exact receive_next fun _ => rosterFill_carriedOut h _ _ _ _ _ _ _
  | pin p => exact receive_next fun _ => pinBib_carriedOut h _ _
  | unpin p => exact receive_next fun _ => withBib_carriedOut fun _ => trivial
  | readRecord p => exact receive_next fun c => withBib_carriedOut fun i => readSlot_carriedOut c i s
  | correctPass p => exact receive_next fun _ => correctPass_carriedOut _ _ _ s
  | clockSet p => exact receive_next fun _ => clockSet_carriedOut _ s
  | clockTrim p => exact receive_next fun _ => clockTrim_carriedOut _ s
  | waveSet p => exact receive_next fun _ => waveSet_carriedOut _ _ _ _ _ _ s
  | gunClear p => exact receive_next fun _ => gunClear_carriedOut _ s
  | pointSetup p => exact receive_next fun _ => pointSetup_carriedOut _ _ _ _ _ s
  | release p => exact receive_next fun _ => releaseEntries_carriedOut _ s
  | postMessage p => exact receive_next fun _ => postMessage_carriedOut _ _ _ _ _ s
  | deleteMessage p => exact receive_next fun _ => deleteMessage_carriedOut _ s
  | endFeature p => exact receive_next fun _ => endFeature_carriedOut _ s
  | featureSetup p => exact receive_next fun _ => featureSetup_carriedOut _ _ _ _ s
  | boardLayout p => exact receive_next fun _ => boardLayout_carriedOut _ _ _ s
  | displayMode p => exact receive_next fun _ => displayMode_carriedOut _ s
  | dutyTable p => exact receive_next fun _ => dutyTable_carriedOut _ s
  | panelWindow p => exact receive_next fun _ => panelWindow_carriedOut _ _ s
  | readLines p => exact receive_next fun c => readLines_carriedOut _ _ c s
  | arbitrationSetup p => exact receive_next fun _ => arbitrationSetup_carriedOut _ _ s
  | clockStop | fetchFills | tableFlush | collect | listTiming | raceClear | brightness | scanPeriod | status
  | attentionMask | channelReset | hold | releaseHold => exact receive_next fun _ => trivial

/-- Settles O52: pinned and held slots leave a victim, so no allocation comes to the stop. -/
theorem everyCommandIsCarriedOut : Obligations.EveryCommandIsCarriedOut :=
  ⟨fun _ => victim_of_allocationSound, fun i _ hs => exec_next (victim_of_allocationSound hs) i⟩

end Sys2Proof.Machine
end

section
/-! The arbiter's operations in full: the grant decision, the withdrawal test, request lines, lapses, graces and
holds (section 1.5). -/

namespace Sys2Proof.Machine

/-! ### The grant decision (R14) -/

/-- The channel whose turn is `n` in the order of the decision (R14). -/
def decisionTurn (mode : ArbMode) (last : Channel) (n : Fin 4) : Channel :=
  match mode with
  | .fixed => n
  | .rotating => last + 1 + n

theorem decisionOrder_eq (mode : ArbMode) (last : Channel) :
    decisionOrder mode last = (List.finRange 4).map (decisionTurn mode last) := by
  cases mode <;> revert last <;> decide

/-- The first channel in the decision's order that asks is the winner (R14). -/
theorem winner_of_first {l : LinkState} (n : Fin 4)
    (asks : l.requestLine[decisionTurn l.mode l.lastGranted n] = true)
    (first : ∀ m < n, l.requestLine[decisionTurn l.mode l.lastGranted m] = false) :
    winner l = some (decisionTurn l.mode l.lastGranted n) := by
  rw [winner, decisionOrder_eq, List.find?_eq_some_iff_getElem]
  refine ⟨asks, n, by simp, by simp only [List.getElem_map, List.getElem_finRange, Fin.cast_mk], fun j hj => ?_⟩
  have := first ⟨j, by omega⟩ hj
  simp only [List.getElem_map, List.getElem_finRange, Fin.cast_mk, this, Bool.not_false]

/-- With no channel asking there is no winner (R14). -/
theorem winner_of_none {l : LinkState} (low : ∀ c : Channel, l.requestLine[c] = false) :
    winner l = none := by
  rw [winner, List.find?_eq_none]
  exact fun c _ => by simp [low c]

theorem grantDecision_of_busy {now : Nat} {l : LinkState} (h : l.busy = true) :
    grantDecision now l = { l with grant := .idle } := by
  simp [grantDecision, h]

theorem grantDecision_of_winner {now : Nat} {l : LinkState} {c : Channel} (h : l.busy = false)
    (hw : winner l = some c) :
    grantDecision now l = { l with grant := .offered c now, lastGranted := c } := by
  simp [grantDecision, h, hw]

theorem grantDecision_of_noWinner {now : Nat} {l : LinkState} (h : l.busy = false)
    (hw : winner l = none) :
    grantDecision now l =
      { l with grant := match l.park with
          | some p => .parked p
          | none => .idle } := by
  cases hp : l.park <;> simp [grantDecision, h, hw, hp]

/-- Settles O14: the winner is the first of the decision's order that asks. -/
theorem grantDecisionPicksTheWinner : Obligations.GrantDecisionPicksTheWinner := by
  intro now l
  refine ⟨grantDecision_of_busy, fun free => ⟨fun low => ?_, fun hm c asks lowest => ?_,
    fun hm n asks first => ?_⟩⟩
  · exact grantDecision_of_noWinner free (winner_of_none low)
  · have hw := winner_of_first (l := l) c (by simpa [hm, decisionTurn] using asks)
      (by simpa [hm, decisionTurn] using lowest)
    rw [hm] at hw
    exact grantDecision_of_winner free hw
  · have hw := winner_of_first (l := l) n (by simpa only [hm, decisionTurn] using asks)
      (by simpa only [hm, decisionTurn] using first)
    rw [hm] at hw
    exact grantDecision_of_winner free hw

/-! ### The withdrawal test (R17) -/

theorem othersRequest_iff (l : LinkState) (c : Channel) :
    othersRequest l c = true ↔ ∃ d : Channel, d ≠ c ∧ l.requestLine[d] = true := by
  simp [othersRequest]

theorem mustWithdraw_iff {now : Nat} {l : LinkState} {c : Channel} {from_ : Nat}
    (hg : l.grant = .held c from_) :
    mustWithdraw now l = true ↔
      (∃ d : Channel, d ≠ c ∧ l.requestLine[d] = true) ∧ from_ + 50 ≤ now ∧ l.holdFrom = none := by
  rw [← othersRequest_iff]
  simp [mustWithdraw, hg, and_assoc]

theorem withdrawalTest_of_mustWithdraw {now : Nat} {l : LinkState} {c : Channel} {from_ : Nat}
    (hg : l.grant = .held c from_) (h : mustWithdraw now l = true) :
    withdrawalTest now l = withdraw now c (some now) l := by
  simp [withdrawalTest, hg, h]

theorem withdrawalTest_of_not_mustWithdraw {now : Nat} {l : LinkState} (h : mustWithdraw now l = false) :
    withdrawalTest now l = l := by
  rcases withdrawalTest_eq now l with ht | ⟨_, _, _, hm, _⟩
  · exact ht
  · simp [h] at hm

/-- Out of HELD the test does nothing (R17). -/
theorem withdrawalTest_of_not_held {now : Nat} {l : LinkState} (h : ∀ c from_, l.grant ≠ .held c from_) :
    withdrawalTest now l = l := by
  rcases withdrawalTest_eq now l with ht | ⟨c, from_, hg, _⟩
  · exact ht
  · exact absurd hg (h c from_)

/-- Lowering a grant under no hold changes the grant alone, or is followed by a decision (R19). -/
theorem withdraw_of_noHold {now : Nat} {c : Channel} {grace : Option Nat} {l : LinkState}
    (h : l.holdFrom = none) :
    withdraw now c grace l =
      if l.busy then { l with grant := .withdrawing c grace }
      else grantDecision now { l with grant := .withdrawing c grace } := by
  rw [withdraw_eq, ← h]

/-- The withdrawal test in HELD (R17, R19). -/
theorem withdrawalTest_of_held {now : Nat} {l : LinkState} {c : Channel} {from_ : Nat}
    (hg : l.grant = .held c from_) :
    withdrawalTest now l =
      if (∃ d : Channel, d ≠ c ∧ l.requestLine[d] = true) ∧ from_ + 50 ≤ now ∧ l.holdFrom = none then
        if l.busy then { l with grant := .withdrawing c (some now) }
        else grantDecision now { l with grant := .withdrawing c (some now) }
      else l := by
  split
  · rename_i h
    rw [withdrawalTest_of_mustWithdraw hg ((mustWithdraw_iff hg).mpr h), withdraw_of_noHold h.2.2]
  · rename_i h
    exact withdrawalTest_of_not_mustWithdraw
      (Bool.eq_false_iff.mpr fun hm => h ((mustWithdraw_iff hg).mp hm))

/-- The withdrawal test in HELD once the hold has ended (R17, R20). -/
theorem withdrawalTest_of_holdEnded {now : Nat} {l : LinkState} {c : Channel} {from_ : Nat}
    (hg : l.grant = .held c from_) :
    withdrawalTest now { l with holdFrom := none } =
      if (∃ d : Channel, d ≠ c ∧ l.requestLine[d] = true) ∧ from_ + 50 ≤ now then
        if l.busy then { l with grant := .withdrawing c (some now), holdFrom := none }
        else grantDecision now { l with grant := .withdrawing c (some now), holdFrom := none }
      else { l with holdFrom := none } := by
  have h := withdrawalTest_of_held (now := now) (l := { l with holdFrom := none }) hg
  simp only [and_true] at h
  exact h

theorem withdrawalTestResult : Claims.WithdrawalTestResult :=
  fun _ _ => ⟨withdrawalTest_of_not_held, fun _ _ => withdrawalTest_of_held⟩

/-! ### Tenure, hold limit, holds (R17, R20) -/

theorem exec_tenureReached {s : State} (run : s.resetHeld = false) :
    exec .tenureReached s = .next (s.withLc (withdrawalTest s.localTime s.lc)) := by
  show execTenureReached s = _
  exact event_of_running _ run

theorem exec_holdLimit {s : State} (run : s.resetHeld = false) :
    exec .holdLimit s =
      .next (if holdExpired s.localTime s.lc.holdFrom then
        s.withLc (withdrawalTest s.localTime { s.lc with holdFrom := none }) else s) := by
  show execHoldLimit s = _
  exact event_of_running _ run

theorem withdrawalAtTenureAndHoldLimit : Claims.WithdrawalAtTenureAndHoldLimit := by
  intro c from_ s run hg
  refine ⟨fun noHold asked elapsed => ?_, fun hnot => ?_, fun start hold => ⟨fun early => ?_, fun late =>
    ⟨fun h => ?_, fun hnot => ?_⟩⟩⟩
  · rw [exec_tenureReached run, withdrawalTest_of_mustWithdraw hg
      ((mustWithdraw_iff hg).mpr ⟨asked, elapsed, noHold⟩), withdraw_eq]
  · rw [exec_tenureReached run, withdrawalTest_of_not_mustWithdraw, State.withLc_self]
    exact Bool.eq_false_iff.mpr fun hm =>
      have ⟨asked, elapsed, noHold⟩ := (mustWithdraw_iff hg).mp hm
      hnot ⟨noHold, asked, elapsed⟩
  · rw [exec_holdLimit run, if_neg (by simpa [hold, holdExpired] using early)]
  · rw [exec_holdLimit run, if_pos (by simpa [hold, holdExpired] using late),
      withdrawalTest_of_holdEnded hg, if_pos h]
  · rw [exec_holdLimit run, if_pos (by simpa [hold, holdExpired] using late),
      withdrawalTest_of_holdEnded hg, if_neg hnot]

theorem isHolder_iff (c : Channel) (g : Grant) : isHolder c g = true ↔ ∃ t, g = .held c t := by
  cases g <;> simp [isHolder]

theorem endHold_of_hold {now : Nat} {c : Channel} {from_ : Nat} {l : LinkState}
    (hg : l.grant = .held c from_) (hold : l.holdFrom ≠ none) :
    endHold now c l = withdrawalTest now { l with holdFrom := none } := by
  simp [endHold, hg, Option.isSome_iff_ne_none.mpr hold]

/-- Only the holder's hold can be ended (R20). -/
theorem endHold_of_not {now : Nat} {c : Channel} {l : LinkState}
    (h : l.holdFrom = none ∨ ∀ t, l.grant ≠ .held c t) : endHold now c l = l := by
  unfold endHold
  split
  · rename_i d from_ hg
    rw [if_neg]
    rintro ⟨rfl, hold⟩
    rcases h with h | h
    · simp [h] at hold
    · exact h from_ hg
  all_goals rfl

theorem exec_hold {c : Channel} {p : Packet} {s : State} (hd : Delivered .hold c p s) :
    exec (.hold p) s = .next (putHold c s) := by
  show execHold p s = _
  exact receive_delivered _ hd

theorem exec_releaseHold {c : Channel} {p : Packet} {s : State} (hd : Delivered .releaseHold c p s) :
    exec (.releaseHold p) s = .next (s.withLc (endHold s.localTime c s.lc)) := by
  show execReleaseHold p s = _
  exact receive_delivered _ hd

theorem holdAndReleaseHold : Claims.HoldAndReleaseHold := by
  intro c p s
  refine ⟨fun hd => ⟨fun holder noHold => ?_, fun hnot => ?_⟩, fun hd => ⟨fun t hg hold => ?_, fun hnot => ?_⟩⟩
  · rw [exec_hold hd, putHold, if_pos ⟨(isHolder_iff c _).mpr holder, by simp [noHold]⟩]
  · rw [exec_hold hd, putHold, if_neg]
    rw [isHolder_iff, Option.isNone_iff_eq_none]
    rintro ⟨⟨t, hg⟩, noHold⟩
    exact hnot.elim (fun h => h noHold) fun h => h t hg
  · rw [exec_releaseHold hd, endHold_of_hold hg hold]
  · rw [exec_releaseHold hd, endHold_of_not hnot, State.withLc_self]

/-- Settles O18: each command ends in the withdrawal test, whose three conditions decide. -/
theorem withdrawalsAndHolds : Obligations.WithdrawalsAndHolds :=
  ⟨withdrawalAtTenureAndHoldLimit, holdAndReleaseHold, withdrawalTestResult⟩

/-! ### Request lines (R14 to R19) -/

theorem exec_requestRaised {c : Channel} {s : State} (run : s.resetHeld = false)
    (low : s.lc.requestLine[c] = false) :
    exec (.requestRaised c) s =
      .next (s.withLc
        (requestRaised c s.localTime { s.lc with requestLine := s.lc.requestLine.set c true })) := by
  show execRequestRaised c s = _
  rw [execRequestRaised, if_neg (by simp [low])]
  exact event_of_running _ run

theorem exec_requestDropped {c : Channel} {s : State} (run : s.resetHeld = false)
    (high : s.lc.requestLine[c] = true) :
    exec (.requestDropped c) s =
      .next (s.withLc
        (requestDropped c s.localTime { s.lc with requestLine := s.lc.requestLine.set c false })) := by
  show execRequestDropped c s = _
  rw [execRequestDropped, if_pos high]
  exact event_of_running _ run

/-- After a rise a channel asks when it rose or asked before. -/
theorem asks_after_rise (v : Vector Bool 4) (c o : Channel) :
    (v.set c true)[o] = true ↔ o = c ∨ v[o] = true := by
  rw [getElem_set_channel]
  by_cases h : o = c <;> simp [h]

theorem requestRaisedByGrant : Claims.RequestRaisedByGrant := by
  intro c s run low
  rw [exec_requestRaised run low]
  congr 2
  cases hg : s.lc.grant with
  | idle | offered d since | withdrawing d grace => simp [requestRaised, hg]
  | parked p =>
    simp only [requestRaised, hg]
    split
    · rename_i hp
      rw [hp]
    · exact withdraw_eq ..
  | held d from_ =>
    simp only [requestRaised, hg]
    rw [withdrawalTest_of_held (c := d) (from_ := from_) rfl]
    simp only [asks_after_rise]
    rfl

theorem inExchange_iff (l : LinkState) :
    l.inExchange = true ↔ ¬ (l.burst = none ∧ l.replyBurst = none) := by
  cases hb : l.burst <;> cases hr : l.replyBurst <;> simp [LinkState.inExchange, hb, hr]

theorem requestDroppedByGrant : Claims.RequestDroppedByGrant := by
  intro c s run high
  rw [exec_requestDropped run high]
  congr 2
  cases hg : s.lc.grant with
  | idle | parked p | withdrawing d grace => simp [requestDropped, hg]
  | offered d since =>
    simp only [requestDropped, hg, ne_eq, ite_not]
    split
    · exact withdraw_eq ..
    · rfl
  | held d from_ =>
    simp only [requestDropped, hg, inExchange_iff, ne_eq, ite_not]
    split
    · rename_i hd
      subst hd
      split
      · exact withdraw_eq ..
      · split
        · rename_i hold
          exact endHold_of_not (.inl hold)
        · rename_i hold
          exact endHold_of_hold rfl hold
    · rfl

/-- Settles O15: by grant state, each case by the rule of that state. -/
theorem requestLinesMoveTheArbiter : Obligations.RequestLinesMoveTheArbiter :=
  ⟨requestRaisedByGrant, requestDroppedByGrant⟩

end Sys2Proof.Machine
end

section
/-! Opening bursts, lapses and graces, the busy line and the arbitration settings (sections 1.1 and 1.5). -/

namespace Sys2Proof.Machine

/-! ### Open patterns (R1, R15, R16, R19) -/

theorem exec_openPattern {s : State} (run : s.resetHeld = false) (noBurst : s.lc.burst = none)
    (noReply : s.lc.replyBurst = none) :
    exec .openPattern s = .next (s.withLc (openBurst s.localTime s.lc)) := by
  show execOpenPattern s = _
  simp [execOpenPattern, run, noBurst, noReply, State.arbiter]

theorem openBurst_of_offered {now since : Nat} {c : Channel} {l : LinkState}
    (hg : l.grant = .offered c since) :
    openBurst now l =
      { l with masterBusy := true, grant := .held c since, burst := some (.taken c false) } := by
  simp only [openBurst, hg]

theorem openBurst_of_held {now from_ : Nat} {c : Channel} {l : LinkState} (hg : l.grant = .held c from_) :
    openBurst now l = { l with masterBusy := true, burst := some (.taken c false) } := by
  simp only [openBurst, hg]

theorem openBurst_of_graceOver {now : Nat} {c : Channel} {l : LinkState}
    (hg : l.grant = .withdrawing c none) :
    openBurst now l = { l with masterBusy := true, burst := some (.afterGrace c) } := by
  simp only [openBurst, hg]

/-- On a line that carries a burst or a reply burst no other opens (log 6). -/
theorem exec_openPattern_of_onLine {s : State} (run : s.resetHeld = false)
    (h : s.lc.burst.isSome ∨ s.lc.replyBurst.isSome) : exec .openPattern s = .next s := by
  show execOpenPattern s = _
  rw [execOpenPattern, if_neg (by simp [run]), if_pos h]

theorem openPatternIsTakenByGrant : Claims.OpenPatternIsTakenByGrant := by
  intro s run noBurst noReply
  rw [exec_openPattern run noBurst noReply]
  congr 2
  cases hg : s.lc.grant with
  | idle | parked p | offered c since | held c from_ => simp only [openBurst, hg]
  | withdrawing c grace => cases grace <;> simp only [openBurst, hg]

theorem oneBurstIsOnTheLineAtATime : Claims.OneBurstIsOnTheLineAtATime := by
  intro s run
  refine ⟨exec_openPattern_of_onLine run, fun hb => ?_⟩
  show execBusyRelease s = _
  rw [execBusyRelease, if_pos (.inr hb)]

/-- Settles O11: by grant state, and by the busy line for what finds nothing to do. -/
theorem burstsOpen : Obligations.BurstsOpen := ⟨openPatternIsTakenByGrant, oneBurstIsOnTheLineAtATime⟩

/-! ### The busy line (R3, R14, R19) -/

theorem exec_busyRelease {s : State} (run : s.resetHeld = false) (driven : s.lc.masterBusy = true)
    (noBurst : s.lc.burst = none) :
    exec .busyRelease s =
      .next (s.withLc (busyReleased s.localTime { s.lc with masterBusy := false })) := by
  show execBusyRelease s = _
  rw [execBusyRelease, if_neg (by simp [driven, noBurst])]
  exact event_of_running _ run

theorem busyReleaseLetsTheGrantPass : Claims.BusyReleaseLetsTheGrantPass := by
  intro s run driven noBurst
  rw [exec_busyRelease run driven noBurst]
  congr 2
  cases hg : s.lc.grant with
  | idle | parked p | offered c since | held c from_ => simp only [busyReleased, hg]
  | withdrawing c grace => simp only [busyReleased, settle, LinkState.busy, hg, Bool.false_or]

/-! ### Lapses (R15, R19) -/

/-- The link after a lapsed offer of `c`: LAPSED recorded, the grant lowered with the grace over (R15). -/
def lapsedLink (c : Channel) (l : LinkState) : LinkState :=
  { l with
    errors := l.errors.set c { l.errors[c] with lapsed := true }
    grant := .withdrawing c none
    holdFrom := none }

theorem exec_offerTimerExpiry {c : Channel} {since : Nat} {s : State} (run : s.resetHeld = false)
    (hg : s.lc.grant = .offered c since) :
    exec .offerTimerExpiry s =
      .next (if since + 20 ≤ s.localTime then
        (s.flagLapsed c).arbiter fun now l =>
          withdraw now c none { l with masterBusy := l.masterBusy || s.openWaits } else s) := by
  show execOfferTimerExpiry s = _
  rw [execOfferTimerExpiry, event_of_running _ run]
  simp [hg, offerExpired]

theorem offerLapsesAfter20ms : Claims.OfferLapsesAfter20ms := by
  intro c since s run hg
  rw [exec_offerTimerExpiry run hg]
  congr 1
  split
  · show s.withLc (withdraw s.localTime c none _) = _
    rw [withdraw_eq]
    by_cases hopen : s.pending.head? = some .openPattern
    · have hw : s.openWaits = true := s.openWaits_iff.mpr hopen
      simp [hopen, hw, LinkState.busy, State.flagLapsed, State.updError]
    · have hw : s.openWaits = false := Bool.eq_false_iff.mpr fun h => hopen (s.openWaits_iff.mp h)
      simp [hopen, hw, LinkState.busy, State.flagLapsed, State.updError]
  · rfl

/-- An offer that lapses with a burst open right behind keeps the line busy (log 20). -/
theorem exec_offerTimerExpiry_of_openWaits {c : Channel} {since : Nat} {s : State}
    (run : s.resetHeld = false) (hg : s.lc.grant = .offered c since) (elapsed : since + 20 ≤ s.localTime)
    (hopen : s.pending.head? = some .openPattern) :
    exec .offerTimerExpiry s = .next (s.withLc { lapsedLink c s.lc with masterBusy := true }) := by
  rw [offerLapsesAfter20ms c since s run hg, if_pos elapsed, if_pos hopen]
  rfl

theorem step_of_pending {c : Instr} {rest : List Instr} {s : State} (h : s.pending = c :: rest) :
    step s = exec c (s.withPending rest) := stepTakesFrontCommand c rest s h

/-- Every end of a burst ignored from the end of the grace sets CUT and is not answered (R12, R19). -/
theorem exec_end_of_afterGrace {i : Instr} {tail : List Byte} {c : Channel} {s : State}
    (run : s.resetHeld = false) (hi : i = .normalClose tail ∨ i = .turnClose tail ∨ i = .cut tail)
    (hb : s.lc.burst = some (.afterGrace c)) :
    exec i s =
      .next (s.withLc
        { s.lc with
          burst := none, errors := s.lc.errors.set c { s.lc.errors[c] with cut := true } }) := by
  rcases hi with rfl | rfl | rfl
  · show execNormalClose tail s = _
    rw [execNormalClose, event_of_running _ run]
    simp only [hb]
    rfl
  · show execTurnClose tail s = _
    rw [execTurnClose, event_of_running _ run]
    simp only [hb]
    rfl
  · show execCut tail s = _
    rw [execCut, event_of_running _ run]
    simp only [hb]
    rfl

/-- Every end of a burst opened in IDLE records nothing and is not answered (R1, R12). -/
theorem exec_end_of_unheard {i : Instr} {tail : List Byte} {s : State}
    (run : s.resetHeld = false) (hi : i = .normalClose tail ∨ i = .turnClose tail ∨ i = .cut tail)
    (hb : s.lc.burst = some .unheard) : exec i s = .next (s.withLc { s.lc with burst := none }) := by
  rcases hi with rfl | rfl | rfl
  · show execNormalClose tail s = _
    rw [execNormalClose, event_of_running _ run]
    simp only [hb]
    rfl
  · show execTurnClose tail s = _
    rw [execTurnClose, event_of_running _ run]
    simp only [hb]
    rfl
  · show execCut tail s = _
    rw [execCut, event_of_running _ run]
    simp only [hb]
    rfl

/-- Without an offer the offer timer's expiry does not happen (log 2). -/
theorem exec_offerTimerExpiry_of_noOffer {s : State} (run : s.resetHeld = false)
    (h : ∀ c t, s.lc.grant ≠ .offered c t) : exec .offerTimerExpiry s = .next s := by
  show execOfferTimerExpiry s = _
  rw [execOfferTimerExpiry, event_of_running _ run]
  cases hg : s.lc.grant with
  | offered c t => exact absurd hg (h c t)
  | idle | parked p | held c from_ | withdrawing c grace => rfl

theorem step_openPattern {rest : List Instr} {s : State} (hp : s.pending = .openPattern :: rest)
    (run : s.resetHeld = false) (noBurst : s.lc.burst = none) (noReply : s.lc.replyBurst = none) :
    step s = .next ((s.withPending rest).withLc (openBurst s.localTime s.lc)) := by
  rw [step_of_pending hp]
  exact exec_openPattern run noBurst noReply

theorem burstOpenAndExpiryCloseTogether : Claims.BurstOpenAndExpiryCloseTogether := by
  intro c since rest s run hg noBurst noReply elapsed
  have opened := openBurst_of_offered (now := s.localTime) hg
  refine ⟨fun hp => ?_, fun hp => ?_⟩
  · refine ⟨_, _, step_openPattern hp run noBurst noReply,
      (step_of_pending rfl).trans (exec_offerTimerExpiry_of_noOffer run (by simp [opened])), rfl, ?_⟩
    simp [opened, State.hearing, run]
  · have lapsed : step s =
        .next ((s.withPending (.openPattern :: rest)).withLc { lapsedLink c s.lc with masterBusy := true }) := by
      rw [step_of_pending hp]
      exact exec_offerTimerExpiry_of_openWaits run hg elapsed rfl
    refine ⟨_, _, lapsed, step_openPattern rfl run noBurst noReply, rfl, rfl, rfl, rfl, ?_,
      fun i tail hi => ⟨_, exec_end_of_afterGrace run hi rfl, noReply, ?_⟩⟩
    · simp [State.hearing, openBurst_of_graceOver, lapsedLink]
    · simp

/-! ### The grace (R19) -/

theorem graceEndsAfter20ms : Claims.GraceEndsAfter20ms := by
  intro c start s run hg
  show execWithdrawalGraceEnd s = _
  rw [execWithdrawalGraceEnd, event_of_running _ run]
  simp only [hg, graceExpired, Config.graceLimit, decide_eq_true_eq]
  congr 1
  split
  · congr 2
    cases s.lc.burst with
    | none => rfl
    | some b => cases b <;> rfl
  · rfl

/-! ### The lines (R3, R13) -/

theorem grantLinesAndBusyLine : Claims.GrantLinesAndBusyLine := by
  intro s c
  constructor
  · cases hg : s.lc.grant <;> simp [State.grantLine, hg]
  · simp [LinkState.busy, Option.isSome_iff_ne_none]

/-- Settles O16: the equation of each event, and for two close together their two orders. -/
theorem grantsLapseAndPass : Obligations.GrantsLapseAndPass :=
  ⟨busyReleaseLetsTheGrantPass, offerLapsesAfter20ms, burstOpenAndExpiryCloseTogether, graceEndsAfter20ms,
    grantLinesAndBusyLine⟩

/-! ### The arbitration settings (R21) -/

theorem arbModeOf_of_le {n : Nat} (h : n ≤ 1) :
    arbModeOf n = some (if n = 0 then .fixed else .rotating) := by
  unfold arbModeOf
  split
  · rfl
  · rw [if_pos (by omega)]

theorem arbModeOf_of_gt {n : Nat} (h : 1 < n) : arbModeOf n = none := by
  rw [arbModeOf, if_neg (by omega), if_neg (by omega)]

theorem parkOf_of_defined {n : Nat} (h : n < 4 ∨ n = 0xFF) :
    parkOf n = some (if h' : n < 4 then some ⟨n, h'⟩ else none) := by
  unfold parkOf toFin
  rcases h with h | rfl
  · rw [if_neg (by omega), dif_pos h]
    rfl
  · rfl

theorem parkOf_of_undefined {n : Nat} (h : ¬ (n < 4 ∨ n = 0xFF)) : parkOf n = none := by
  rw [not_or] at h
  rw [parkOf, if_neg h.2, toFin, dif_neg h.1, Option.map_none]

/-- Both codes are defined and both values are stored, or the request is refused (R21). -/
theorem arbitrationSetup_eq (mode park : Nat) (s : State) :
    arbitrationSetup mode park s =
      if mode ≤ 1 ∧ (park < 4 ∨ park = 0xFF) then
        .done (s.withLc
          { s.lc with
            mode := if mode = 0 then .fixed else .rotating
            park := if h' : park < 4 then some ⟨park, h'⟩ else none })
      else .refused .badValue s := by
  unfold arbitrationSetup
  split
  · rename_i mode' park' hm hp
    have hmode : mode ≤ 1 := not_lt.mp fun h => by simp [arbModeOf_of_gt h] at hm
    have hpark : park < 4 ∨ park = 0xFF := by_contra fun h => by simp [parkOf_of_undefined h] at hp
    rw [arbModeOf_of_le hmode, Option.some.injEq] at hm
    rw [parkOf_of_defined hpark, Option.some.injEq] at hp
    rw [if_pos ⟨hmode, hpark⟩, hm, hp]
  · rename_i mode' hm hp
    exact (if_neg fun h => by simp [parkOf_of_defined h.2] at hp).symm
  · rename_i hm
    exact (if_neg fun h => by simp [arbModeOf_of_le h.1] at hm).symm

/-- Settles O17: by whether both codes are defined. -/
theorem arbitrationSetupStoresBoth : Obligations.ArbitrationSetupStoresBoth := by
  intro c p s hd
  show execArbitrationSetup p s = _
  refine (receive_delivered _ hd).trans ?_
  simp only [arbitrationSetup_eq, paramHigh, paramLow]
  by_cases h : paramOf p / 256 ≤ 1 ∧ (paramOf p % 256 < 4 ∨ paramOf p % 256 = 0xFF)
  · simp only [if_pos h]
  · simp only [if_neg h]
    rfl

end Sys2Proof.Machine
end

section
/-! The path of a packet, the checks it names, and the ends of bursts (sections 1.1 to 1.3). -/

namespace Sys2Proof.Machine

/-! ### Records (R9) -/

theorem refusalIsCounted : Claims.RefusalIsCounted := by
  intro s c kind reason
  refine ⟨rfl, fun d hd => ?_, ?_, rfl⟩
  · rw [refuse_eq, State.withLc_lc, getElem_set_channel, if_neg hd]
  · rw [refuse_eq, State.withLc_lc, getElem_set_channel, if_pos rfl, ErrorRecord.refusal]
    congr 1
    · show min 255 (s.lc.errors[c].refusals + 1) = _
      split <;> omega
    · cases s.lc.errors[c].first <;> rfl

theorem linkErrorFlags : Claims.LinkErrorFlags := by
  refine ⟨fun s c => ⟨rfl, rfl, rfl, rfl, rfl⟩, rfl, fun e => ?_⟩
  obtain ⟨headerBad, payloadBad, cut, wrongChannel, lapsed, refusals, first⟩ := e
  simp [ErrorRecord.isEmpty, ErrorRecord.empty, and_assoc]

/-- Settles O9: each update touches one field of one channel's record. -/
theorem refusalIsCountedAndTheFirstKept : Obligations.RefusalIsCountedAndTheFirstKept :=
  ⟨refusalIsCounted, linkErrorFlags⟩

/-! ### Kinds, codes and forms (R4, R7, R8, 11.2) -/

theorem permissionTable : Claims.PermissionTable := by
  refine ⟨fun k c => ?_, fun k => ?_⟩
  · revert c
    cases k <;> decide
  · cases k <;> decide

/-- Kind codes tell kinds apart (11.2). -/
theorem kindCode_injective : Function.Injective kindCode := by
  intro k k' h
  have hinv (k : Kind) : kindOfCode (kindCode k) = some k := by cases k <;> rfl
  exact Option.some.inj ((hinv k).symm.trans (h ▸ hinv k'))

/-- A code stands for the kind whose code it is (11.2). -/
theorem kindOfCode_iff (code : Byte) (k : Kind) : kindOfCode code = some k ↔ kindCode k = code := by
  constructor
  · intro h
    simpa using List.find?_some h
  · rintro rfl
    cases k <;> rfl

theorem kindCodes : Claims.KindCodes := ⟨by decide, kindOfCode_iff⟩

theorem formsAndLengths : Claims.FormsAndLengths := by
  refine ⟨fun k v => ?_, fun k l check => ?_⟩
  · cases k <;> simp [formOk, kindLength]
  · cases k <;> simp [formOk, kindLength, eq_comm (a := l.length)]

/-! ### Headers and fields (R4, R5, 5.6, 11.1) -/

/-- Two bytes of a number, most significant first (5.6). -/
theorem two_eq (n : Nat) : Claims.two n = be16 n := rfl

theorem headerOk_iff (h : Header) :
    headerOk h = true ↔
      crc8 ([h.kind, h.control] ++ Claims.two h.param.toNat) = h.check ∧
        (h.control.getLsbD 6 = true → h.param.toNat ≤ 512) := by
  rw [two_eq]
  simp only [headerOk, headerBytes, headerIsLong, Bool.and_eq_true, beq_iff_eq, Bool.or_eq_true,
    Bool.not_eq_true', decide_eq_true_eq]
  cases h.control.getLsbD 6 <;> simp

theorem headerAndPayloadChecks : Claims.HeaderAndPayloadChecks := by
  refine ⟨headerOk_iff, fun kind p => ⟨fun v hb => ?_, fun l check hb => ?_⟩, fun _ => rfl,
    fun l check => by simp [payloadOk]⟩
  · simp [packetHeader, packetControl, bodyIsLong, bodyParam, hb]
  · simp [packetHeader, packetControl, bodyIsLong, bodyParam, hb]

theorem byteAt_append (before after : List Byte) (i : Nat) :
    byteAt (before ++ after) (before.length + i) = byteAt after i := by
  simp [byteAt, List.getElem?_append_right]

theorem fieldsAreReadMostSignificantFirst : Claims.FieldsAreReadMostSignificantFirst := by
  refine ⟨fun p => ⟨fun v hb => ⟨?_, ?_⟩, fun l check hb => ?_⟩, fun before after a b c d => ⟨?_, ?_, ?_⟩⟩
  · simp [paramOf, bodyParam, hb]
  · simp [bodyParam, hb]
  · simp [payloadOf, bodyPayload, hb]
  · exact byteAt_append before (a :: after) 0
  · have h0 := byteAt_append before (a :: b :: after) 0
    have h1 := byteAt_append before (a :: b :: after) 1
    simp only [Nat.add_zero] at h0
    rw [halfAt, h0, h1]
    simp only [byteAt, List.getD_cons_zero, List.getD_cons_succ]
    omega
  · have hbyte := byteAt_append before (a :: b :: c :: d :: after)
    have h0 := hbyte 0
    simp only [Nat.add_zero] at h0
    rw [longAt, halfAt, halfAt, h0, Nat.add_assoc, hbyte 1, hbyte 2, hbyte 3]
    simp only [byteAt, List.getD_cons_zero, List.getD_cons_succ]
    omega

theorem hearingATakenBurst : Claims.HearingATakenBurst := by
  intro s c
  refine ⟨hearing_some, fun ⟨run, hb⟩ => ?_⟩
  simp [State.hearing, run, hb]

/-! ### The path of a packet (R1, R5 to R8) -/

/-- A request's command is the path of its packet to an owner block. -/
theorem exec_requestOf (k : Kind) :
    ∃ owner : Packet → Channel → State → Answer,
      ∀ p s, exec (requestOf k p) s = receive k p (owner p) s := by
  unfold requestOf exec
  cases k <;> exact ⟨_, fun _ _ => rfl⟩

theorem receive_of_packetError {k : Kind} {p : Packet} {c : Channel} {e : PacketError} {s : State}
    (owner : Channel → State → Answer) (heard : s.hearing = some c)
    (he : packetError (kindCode k) p c = some e) :
    receive k p owner s = .next (packetErrorEffect e (kindCode k) c s) := by
  simp [receive, heard, he]

theorem receive_of_requestRefusal {k : Kind} {p : Packet} {c : Channel} {r : Reason} {s : State}
    (owner : Channel → State → Answer) (heard : s.hearing = some c)
    (he : packetError (kindCode k) p c = none) (hr : requestRefusal k p c s = some r) :
    receive k p owner s = .next (s.refuse c (kindCode k) r) := by
  simp [receive, heard, he, hr]

/-- The channel field of a header is the control byte's remainder by 4 (11.1). -/
theorem headerChannel_val (h : Header) : (headerChannel h).val = h.control.toNat % 4 := by
  simp [headerChannel]

/-- A packet's header carries its channel (11.1). -/
theorem headerChannel_packetHeader (kind : Byte) (p : Packet) :
    headerChannel (packetHeader kind p) = p.channel := by
  apply Fin.ext
  rw [headerChannel_val]
  simp only [packetHeader, packetControl, BitVec.toNat_append, BitVec.toNat_ofNat, Nat.shiftLeft_eq]
  rw [Nat.mod_eq_of_lt p.channel.isLt, Nat.mul_comm, ← Nat.two_pow_add_eq_or_of_lt p.channel.isLt]
  omega

/-- Steps 1 to 4 of R5: the first check that fails decides. -/
theorem headerError_of_bad {h : Header} (c : Channel) (hbad : headerOk h = false) :
    headerError h c = some .headerBad := by
  simp [headerError, hbad]

theorem headerError_of_wrongChannel {h : Header} {c : Channel} (hok : headerOk h = true)
    (hc : headerChannel h ≠ c) : headerError h c = some .wrongChannel := by
  simp [headerError, hok, hc]

theorem headerError_of_unknownKind {h : Header} {c : Channel} (hok : headerOk h = true)
    (hc : headerChannel h = c) (hk : kindOfCode h.kind = none) :
    headerError h c = some .unknownKind := by
  simp [headerError, hok, hc, hk]

theorem headerError_of_kind {h : Header} {c : Channel} {k : Kind} (hok : headerOk h = true)
    (hc : headerChannel h = c) (hk : kindOfCode h.kind = some k) :
    headerError h c = if kindPermitted k c = true then none else some .notPermitted := by
  simp [headerError, hok, hc, hk]

theorem packetError_of_headerError {kind : Byte} {p : Packet} {c : Channel} {e : PacketError}
    (he : headerError (packetHeader kind p) c = some e) : packetError kind p c = some e := by
  simp [packetError, he]

theorem packetError_of_header {kind : Byte} {p : Packet} {c : Channel}
    (he : headerError (packetHeader kind p) c = none) :
    packetError kind p c = if payloadOk p.body = true then none else some .payloadBad := by
  simp [packetError, he]

theorem requestRefusal_of_form {k : Kind} {p : Packet} (c : Channel) (s : State)
    (hf : formOk k p.body = false) : requestRefusal k p c s = some .badLength := by
  simp [requestRefusal, hf]

theorem requestRefusal_of_full {k : Kind} {p : Packet} {c : Channel} {s : State}
    (hf : formOk k p.body = true) (asking : kindAsking k = true) (full : 4 ≤ s.lc.replies[c].length) :
    requestRefusal k p c s = some .replyFull := by
  rw [requestRefusal, if_neg (by simp [hf]), if_pos ⟨asking, full⟩]

theorem requestRefusal_of_room {k : Kind} {p : Packet} {c : Channel} {s : State}
    (hf : formOk k p.body = true) (room : kindAsking k = true → s.lc.replies[c].length < 4) :
    requestRefusal k p c s = none := by
  rw [requestRefusal, if_neg (by simp [hf]), if_neg]
  rintro ⟨asking, full⟩
  exact absurd (room asking) (not_lt.mpr full)

theorem packetChecksInOrder : Claims.PacketChecksInOrder := by
  intro k p c s heard
  obtain ⟨owner, hexec⟩ := exec_requestOf k
  have hkind : kindOfCode (packetHeader (kindCode k) p).kind = some k := (kindOfCode_iff _ k).mpr rfl
  have hchannel := headerChannel_packetHeader (kindCode k) p
  have failed {e : PacketError} (he : packetError (kindCode k) p c = some e) :
      exec (requestOf k p) s = .next (packetErrorEffect e (kindCode k) c s) :=
    (hexec p s).trans (receive_of_packetError _ heard he)
  refine ⟨fun hbad => failed (packetError_of_headerError (headerError_of_bad c hbad)), fun hok =>
    ⟨fun hc => failed (packetError_of_headerError (headerError_of_wrongChannel hok (hchannel ▸ hc))),
      fun hc => ?_⟩⟩
  have hheader := headerError_of_kind hok (hchannel.trans hc) hkind
  refine ⟨fun hperm => ?_, fun hperm => ?_⟩
  · rw [if_neg (by simp [hperm])] at hheader
    exact failed (packetError_of_headerError hheader)
  rw [if_pos hperm] at hheader
  have hpacket := packetError_of_header hheader
  refine ⟨fun hpay => ?_, fun hpay => ?_⟩
  · rw [if_neg (by simp [hpay])] at hpacket
    exact failed hpacket
  rw [if_pos hpay] at hpacket
  have refused {r : Reason} (hr : requestRefusal k p c s = some r) :
      exec (requestOf k p) s = .next (s.refuse c (kindCode k) r) :=
    (hexec p s).trans (receive_of_requestRefusal _ heard hpacket hr)
  exact ⟨fun hf => refused (requestRefusal_of_form c s hf),
    fun hf asking full => refused (requestRefusal_of_full hf asking full),
    fun hf room => ⟨heard, hpacket, requestRefusal_of_room hf room⟩⟩

theorem packetsOutsideAHeardBurstAreIgnored : Claims.PacketsOutsideAHeardBurstAreIgnored := by
  intro k p s unheard
  obtain ⟨owner, hexec⟩ := exec_requestOf k
  exact (hexec p s).trans (receive_unheard _ unheard)

/-- Settles O7: the checks in their order, then the tables kind by kind. -/
theorem packetsArePassedOrDropped : Obligations.PacketsArePassedOrDropped :=
  ⟨packetChecksInOrder, packetsOutsideAHeardBurstAreIgnored, hearingATakenBurst, headerAndPayloadChecks,
    permissionTable, kindCodes, formsAndLengths, fieldsAreReadMostSignificantFirst⟩

end Sys2Proof.Machine
end

section
/-! The ends of bursts and the link's error events (sections 1.1 and 1.2), power-on, and local time. -/

namespace Sys2Proof.Machine

/-! ### The end of an exchange (R18, R19) -/

/-- A holder that still asks, or no holder, keeps what it has (R18). -/
theorem endExchange_of_asking {now : Nat} {l : LinkState}
    (h : ∀ c from_, l.grant = .held c from_ → l.requestLine[c] = true) : endExchange now l = l := by
  rcases endExchange_eq now l with he | ⟨c, from_, hg, low, -⟩
  · exact he
  · simp [h c from_ hg] at low

theorem endExchange_of_low {now from_ : Nat} {c : Channel} {l : LinkState} (hg : l.grant = .held c from_)
    (low : l.requestLine[c] = false) : endExchange now l = withdraw now c none l := by
  simp only [endExchange, hg, low]
  rfl

theorem endOfAnExchange : Claims.EndOfAnExchange :=
  fun _ _ => ⟨fun _ _ hg low => (endExchange_of_low hg low).trans (withdraw_eq ..), endExchange_of_asking⟩

/-! ### What the last bytes of a burst record (R2, R5) -/

theorem flagCut_flagCut (s : State) (c : Channel) : (s.flagCut c).flagCut c = s.flagCut c := by
  simp [State.flagCut, State.updError]

/-- Steps 1 to 4 of R5 do not look at the payload. -/
theorem headerError_ne_payloadBad (h : Header) (c : Channel) : headerError h c ≠ some .payloadBad := by
  unfold headerError
  repeat' split
  all_goals simp

theorem tailHeader_of_short {tail : List Byte} (c : Channel) (s : State) (h : tail.length < 5) :
    tailHeader tail c s = s := if_pos h

theorem closeErrors_of_short {tail : List Byte} (c : Channel) (s : State) (h : tail.length < 5) :
    closeErrors tail c s = if tail = [] then s else s.flagCut c := by
  rw [closeErrors, tailHeader_of_short c s h]
  cases tail with
  | nil => rfl
  | cons b rest =>
    have hlen : rest.length + 1 < 5 := h
    have hcut : tailCut (b :: rest) c = true := by simp [tailCut, hlen]
    rw [if_pos hcut, if_neg (List.cons_ne_nil b rest)]

/-- What a burst records that ends with a close inside a packet whose header came whole (R2, R5; log 5). -/
def wholeHeaderRecorded (tail : List Byte) (c : Channel) (s : State) : State :=
  match headerError (headerOfBytes tail) c with
  | none => s.flagCut c
  | some .headerBad => (s.withLc { s.lc with burst := some (.taken c true) }).flagHeaderBad c
  | some .wrongChannel => (s.flagWrongChannel c).flagCut c
  | some .unknownKind => (s.refuse c (headerOfBytes tail).kind .unknownKind).flagCut c
  | some .notPermitted => (s.refuse c (headerOfBytes tail).kind .notPermitted).flagCut c
  | some .payloadBad => s

theorem closeErrors_of_wholeHeader {tail : List Byte} (c : Channel) (s : State) (h : 5 ≤ tail.length) :
    closeErrors tail c s = wholeHeaderRecorded tail c s := by
  have hlen : ¬ tail.length < 5 := by omega
  have hne : tail ≠ [] := by rintro rfl; simp at h
  cases he : headerError (headerOfBytes tail) c with
  | none => simp [closeErrors, tailHeader, tailCut, wholeHeaderRecorded, he, hlen, hne]
  | some e =>
    cases e with
    | payloadBad => exact absurd he (headerError_ne_payloadBad _ c)
    | headerBad | wrongChannel | unknownKind | notPermitted =>
      simp [closeErrors, tailHeader, tailCut, wholeHeaderRecorded, packetErrorEffect, he, hlen, hne]

theorem tailHeader_flagCut_of_wholeHeader {tail : List Byte} (c : Channel) (s : State)
    (h : 5 ≤ tail.length) :
    (tailHeader tail c s).flagCut c = (wholeHeaderRecorded tail c s).flagCut c := by
  have hlen : ¬ tail.length < 5 := by omega
  cases he : headerError (headerOfBytes tail) c with
  | none => simp [tailHeader, wholeHeaderRecorded, he, hlen, flagCut_flagCut]
  | some e =>
    cases e with
    | payloadBad => exact absurd he (headerError_ne_payloadBad _ c)
    | headerBad | wrongChannel | unknownKind | notPermitted =>
      simp [tailHeader, wholeHeaderRecorded, packetErrorEffect, he, hlen, flagCut_flagCut]

/-! ### The ends of a taken burst -/

section TakenBurst

variable {c : Channel} {lost : Bool} {s : State} (tail : List Byte) (run : s.resetHeld = false)
  (hb : s.lc.burst = some (.taken c lost))
include run hb

theorem exec_normalClose_of_taken :
    exec (.normalClose tail) s =
      .next (Claims.burstEnded (if lost = true then s else closeErrors tail c s)) := by
  show execNormalClose tail s = _
  rw [execNormalClose, event_of_running _ run]
  simp only [hb]
  rfl

theorem exec_cut_of_taken :
    exec (.cut tail) s =
      .next (Claims.burstEnded ((if lost = true then s else tailHeader tail c s).flagCut c)) := by
  show execCut tail s = _
  rw [execCut, event_of_running _ run]
  simp only [hb]
  rfl

theorem exec_turnClose_of_taken {u : State} (hu : u = if lost = true then s else closeErrors tail c s) :
    exec (.turnClose tail) s = .next (u.withLc (turnaround c u.lc)) := by
  show execTurnClose tail s = _
  rw [execTurnClose, event_of_running _ run, hu]
  simp only [hb]

end TakenBurst

/-- The records at a close of a taken burst with less than a header after its last packet (R2, R6). -/
theorem closeErrors_of_lost_or_short {tail : List Byte} {lost : Bool} (c : Channel) (s : State)
    (h : lost = true ∨ tail.length < 5) :
    (if lost = true then s else closeErrors tail c s) =
      if lost = true ∨ tail = [] then s else s.flagCut c := by
  rcases h with h | h
  · rw [if_pos h, if_pos (.inl h)]
  · rw [closeErrors_of_short c s h]
    cases lost <;> simp

theorem takenBurstEndsAtCloseOrCut : Claims.TakenBurstEndsAtCloseOrCut := by
  intro c lost tail s run hb h
  constructor
  · rw [exec_normalClose_of_taken tail run hb, closeErrors_of_lost_or_short c s h]
  · rw [exec_cut_of_taken tail run hb]
    rcases h with h | h
    · rw [if_pos h]
    · rw [tailHeader_of_short c s h, ite_self]

theorem partialPacketIsRecordedAtClose : Claims.PartialPacketIsRecordedAtClose := by
  intro c tail s run hb hlen
  have hclose := closeErrors_of_wholeHeader c s hlen
  refine ⟨?_, ?_, ?_⟩
  · rw [exec_normalClose_of_taken tail run hb, hclose]
    rfl
  · rw [exec_cut_of_taken tail run hb]
    simp only [Bool.false_eq_true, if_false]
    rw [tailHeader_flagCut_of_wholeHeader c s hlen]
    rfl
  · have runEnd : (wholeHeaderRecorded tail c s).resetHeld = false := by
      obtain ⟨b, e, -, he⟩ := closeErrors_recorded tail c s
      rw [← hclose, he]
      exact run
    rw [exec_turnClose_of_taken tail run hb (u := wholeHeaderRecorded tail c s) hclose.symm]
    exact (exec_turnClose_of_taken (lost := true)
      (s := (wholeHeaderRecorded tail c s).withLc
        { (wholeHeaderRecorded tail c s).lc with burst := some (.taken c true) })
      [] runEnd rfl rfl).symm

theorem ignoredBurstsAreNotAnswered : Claims.IgnoredBurstsAreNotAnswered :=
  fun _ _ _ run hi => ⟨fun _ hb => exec_end_of_afterGrace run hi hb, fun hb => exec_end_of_unheard run hi hb⟩

theorem headerChecksInOrder : Claims.HeaderChecksInOrder := by
  refine ⟨fun kind control high low check rest => rfl, fun h c => ⟨headerError_of_bad c, fun hok => ?_⟩⟩
  have hchannel : headerChannel h = c ↔ h.control.toNat % 4 = c.val := by
    rw [Fin.ext_iff, headerChannel_val]
  refine ⟨fun hc => headerError_of_wrongChannel hok fun h => hc (hchannel.mp h), fun hc => ⟨fun hk => ?_,
    fun k hk => ?_⟩⟩
  · exact headerError_of_unknownKind hok (hchannel.mpr hc) hk
  · exact headerError_of_kind hok (hchannel.mpr hc) hk

/-- Settles O12: by what the end adds to the record, and the end of the exchange by grant state. -/
theorem burstsEndUnanswered : Obligations.BurstsEndUnanswered :=
  ⟨takenBurstEndsAtCloseOrCut, partialPacketIsRecordedAtClose, ignoredBurstsAreNotAnswered,
    headerChecksInOrder, endOfAnExchange⟩

/-! ### Link error events (R5, R6, R9) -/

/-- The link after a bad header in a burst of `c`: the flag set and the framing lost (R6). -/
def badHeaderLink (c : Channel) (l : LinkState) : LinkState :=
  { l with burst := some (.taken c true), errors := l.errors.set c { l.errors[c] with headerBad := true } }

theorem exec_headerBad {h : Header} {c : Channel} {s : State} (heard : s.hearing = some c)
    (bad : headerOk h = false) : exec (.headerBad h) s = .next (s.withLc (badHeaderLink c s.lc)) := by
  show execHeaderBad h s = _
  simp only [execHeaderBad, heard, bad]
  rfl

/-- Nothing is heard out of a taken burst whose framing holds (R1, R6). -/
theorem hearing_eq_none {s : State} (h : ∀ c, s.lc.burst ≠ some (.taken c false)) : s.hearing = none := by
  cases heard : s.hearing with
  | none => rfl
  | some c => exact absurd (hearing_some heard).2 (h c)

theorem badHeaderLosesTheBurst : Claims.BadHeaderLosesTheBurst := by
  intro h c s heard bad
  exact ⟨_, exec_headerBad heard bad, rfl, hearing_eq_none (by simp [badHeaderLink])⟩

/-- The holder's next open pattern on a free link is heard from its first byte (R1, R6). -/
theorem next_burst_heard {c : Channel} {from_ : Nat} {s : State} (run : s.resetHeld = false)
    (hg : s.lc.grant = .held c from_) (noBurst : s.lc.burst = none) (noReply : s.lc.replyBurst = none) :
    ∃ t, exec .openPattern s = .next t ∧ t.hearing = some c := by
  refine ⟨_, exec_openPattern run noBurst noReply, ?_⟩
  simp [State.hearing, run, openBurst_of_held hg]

theorem exec_replyBurstEnd {r : ReplyBurst} {s : State} (run : s.resetHeld = false)
    (sending : s.lc.replyBurst = some r) :
    exec .replyBurstEnd s =
      .next (s.withLc
        (settle s.localTime (endExchange s.localTime { s.lc with replyBurst := none }))) := by
  show execReplyBurstEnd s = _
  rw [execReplyBurstEnd, event_of_running _ run]
  simp only [sending]
  rfl

/-- A holder that still asks keeps its grant at the end of its exchange (R18). -/
theorem endExchange_of_holder {now from_ : Nat} {c : Channel} {l : LinkState} (hg : l.grant = .held c from_)
    (asks : l.requestLine[c] = true) : endExchange now l = l :=
  endExchange_of_asking fun d since hd => by
    rw [hg, Grant.held.injEq] at hd
    exact hd.1 ▸ asks

/-- After an unanswered end of its burst the holder's next one is heard (R1, R6, R18). -/
theorem next_burst_heard_after_burstEnded {c : Channel} {from_ : Nat} {s : State} (run : s.resetHeld = false)
    (hg : s.lc.grant = .held c from_) (asks : s.lc.requestLine[c] = true)
    (noReply : s.lc.replyBurst = none) :
    ∃ t, exec .openPattern (Claims.burstEnded s) = .next t ∧ t.hearing = some c := by
  have kept : Claims.burstEnded s = s.withLc { s.lc with burst := none } :=
    congrArg s.withLc (endExchange_of_holder (l := { s.lc with burst := none }) hg asks)
  rw [kept]
  exact next_burst_heard (from_ := from_) run hg rfl noReply

/-- After a reply burst the holder's next burst is heard (R1, R6, R18). -/
theorem next_burst_heard_after_reply {c : Channel} {from_ : Nat} {r : ReplyBurst} {s : State}
    (run : s.resetHeld = false) (hg : s.lc.grant = .held c from_) (asks : s.lc.requestLine[c] = true)
    (noBurst : s.lc.burst = none) (sending : s.lc.replyBurst = some r) :
    ∃ t u, exec .replyBurstEnd s = .next t ∧ exec .openPattern t = .next u ∧ u.hearing = some c := by
  have kept : settle s.localTime (endExchange s.localTime { s.lc with replyBurst := none }) =
      { s.lc with replyBurst := none } := by
    rw [endExchange_of_holder (l := { s.lc with replyBurst := none }) hg asks]
    simp [settle, hg]
  have hend := exec_replyBurstEnd run sending
  rw [kept] at hend
  exact ⟨_, (next_burst_heard (s := s.withLc { s.lc with replyBurst := none }) run hg noBurst rfl).imp
    fun u hu => ⟨hend, hu⟩⟩

theorem nextBurstAfterABadHeaderIsHeard : Claims.NextBurstAfterABadHeaderIsHeard := by
  intro h c from_ tail s t heard bad noReply hg asks ht
  obtain ⟨run, -⟩ := hearing_some heard
  rw [exec_headerBad heard bad, Host.Outcome.next.injEq] at ht
  have run' : t.resetHeld = false := ht ▸ run
  have hb : t.lc.burst = some (.taken c true) := ht ▸ rfl
  have hg' : t.lc.grant = .held c from_ := ht ▸ hg
  have asks' : t.lc.requestLine[c] = true := ht ▸ asks
  have noReply' : t.lc.replyBurst = none := ht ▸ noReply
  refine ⟨fun i hi => ?_, ?_⟩
  · simp only [List.mem_cons, List.not_mem_nil, or_false] at hi
    rcases hi with rfl | rfl
    · obtain ⟨v, hv⟩ := next_burst_heard_after_burstEnded run' hg' asks' noReply'
      exact ⟨_, v, exec_normalClose_of_taken tail run' hb, hv⟩
    · obtain ⟨v, hv⟩ := next_burst_heard_after_burstEnded (s := t.flagCut c) run' hg' asks' noReply'
      exact ⟨_, v, exec_cut_of_taken tail run' hb, hv⟩
  · obtain ⟨u, v, hu, hv⟩ := next_burst_heard_after_reply (s := t.withLc (turnaround c t.lc)) run' hg' asks'
      rfl rfl
    exact ⟨_, u, v, exec_turnClose_of_taken tail run' hb rfl, hu, hv⟩

theorem unknownKindIsRefused : Claims.UnknownKindIsRefused := by
  intro kind p c s heard hkind hok
  show execUnknownKind kind p s = _
  have hchannel := headerChannel_packetHeader kind p
  by_cases hc : p.channel = c
  · have he := packetError_of_headerError
      (headerError_of_unknownKind hok (hchannel.trans hc) (show kindOfCode (packetHeader kind p).kind = none
        from hkind))
    simp [execUnknownKind, heard, hkind, he, hc, packetErrorEffect]
  · have he := packetError_of_headerError (headerError_of_wrongChannel hok (hchannel ▸ hc))
    simp [execUnknownKind, heard, hkind, he, hc, packetErrorEffect]

/-- Settles O8: the header checks decide in their order, and an ended burst leaves the holder in HELD. -/
theorem linkErrorEvents : Obligations.LinkErrorEvents :=
  ⟨badHeaderLosesTheBurst, nextBurstAfterABadHeaderIsHeard, unknownKindIsRefused⟩

end Sys2Proof.Machine
end

section
/-! Power-on (R171) and the conventions of local time (logs 1 to 3). -/

namespace Sys2Proof.Machine

/-! ### Power-on -/

/-- The state POWER_ON leaves: every block at its power-on values and a grant decision taken; with no window
defined the first scan ends as it starts (R163, R171). -/
theorem exec_powerOn (s : State) :
    exec .powerOn s =
      .next ((State.atPowerOn s.lc.requestLine s.lc.masterBusy false s.pending).withLc
        (grantDecision 0 (linkAtPowerOn s.lc.requestLine s.lc.masterBusy))) := rfl

/-- The decision at power-on leaves IDLE while the line is busy or no channel asks (R14). -/
theorem grantDecision_atPowerOn_idle {lines : Vector Bool 4} {busy : Bool}
    (h : busy = true ∨ ∀ c : Channel, lines[c] = false) :
    grantDecision 0 (linkAtPowerOn lines busy) = linkAtPowerOn lines busy := by
  cases busy with
  | true => exact grantDecision_of_busy rfl
  | false =>
    have low := h.resolve_left (by simp)
    exact grantDecision_of_noWinner rfl (winner_of_none low)

/-- The decision at power-on offers the grant to the lowest channel that asks (R14). -/
theorem grantDecision_atPowerOn_offered {lines : Vector Bool 4} (c : Channel) (asks : lines[c] = true)
    (lowest : ∀ d : Channel, d < c → lines[d] = false) :
    grantDecision 0 (linkAtPowerOn lines false) =
      { linkAtPowerOn lines false with grant := .offered c 0, lastGranted := c } := by
  have hturn (n : Fin 4) : decisionTurn .rotating 3 n = n := by revert n; decide
  have hw := winner_of_first (l := linkAtPowerOn lines false) c
    (by simpa only [linkAtPowerOn, hturn] using asks) (by simpa only [linkAtPowerOn, hturn] using lowest)
  exact grantDecision_of_winner rfl (hw.trans (congrArg some (hturn c)))

/-- Every slot is EMPTY and unheld at power-on (R87). -/
theorem emptyTable_slots (i : Slot) :
    RunnerTable.empty.slots[i] = none ∧ RunnerTable.empty.holds[i] = 0 := by
  simp [RunnerTable.empty]

/-- The duty table at power-on rises by 17 from 0 to 255 (R167). -/
theorem boardAtPowerOn_duty (i : Fin 16) : boardAtPowerOn.duty[i].toNat = 17 * i.val := by
  simp only [boardAtPowerOn, Fin.getElem_fin, Vector.getElem_ofFn, BitVec.toNat_ofNat]
  omega

/-- No window is defined or unusable at power-on (R167). -/
theorem boardAtPowerOn_windows (w : Fin 6) :
    boardAtPowerOn.windows[w] = none ∧ boardAtPowerOn.unusable[w] = false := by
  simp [boardAtPowerOn]

/-- Settles O3: the blocks' power-on values by their own definitions, the grant decision by the two cases above. -/
theorem powerOnStartsEveryBlock : Obligations.PowerOnStartsEveryBlock := by
  intro s
  refine ⟨_, exec_powerOn s, ⟨rfl, rfl, rfl⟩, ?link, ?clock, rfl, ⟨emptyTable_slots, ?order, rfl, rfl⟩, rfl,
    rfl, ?band, rfl, ?board, ?masks, rfl, rfl, rfl⟩
  case link =>
    rw [State.withLc_lc, (grantDecision_eq 0 _).1]
    refine ⟨rfl, rfl, rfl, rfl, rfl, rfl, rfl, fun c => ?_, fun h => ?_, fun free c asks lowest => ?_⟩
    · simp [linkAtPowerOn]
    · rw [grantDecision_atPowerOn_idle h]
      exact ⟨rfl, rfl⟩
    · rw [free, grantDecision_atPowerOn_offered c asks lowest]
      exact ⟨rfl, rfl⟩
  case clock => exact ⟨rfl, rfl, rfl, fun w => by simp [State.atPowerOn, cmuAtPowerOn]⟩
  case order => simp only [State.withLc_rt, State.atPowerOn, RunnerTable.empty]
  case band =>
    refine ⟨fun k => ?_, fun m => ?_, rfl, rfl, rfl, rfl, rfl, rfl, rfl, rfl, rfl, rfl⟩
    · simp [State.atPowerOn, featureAtPowerOn]
    · simp [State.atPowerOn, featureAtPowerOn]
  case board =>
    exact ⟨rfl, rfl, rfl, rfl, rfl, rfl, boardAtPowerOn_duty, boardAtPowerOn_windows, rfl, rfl, rfl⟩
  case masks => exact fun c => by simp [State.atPowerOn, attentionAtPowerOn]

/-! ### Idle steps (log 1) -/

/-- The first event that is due is the one after those that are not (log 3). -/
theorem due_of_first {s : State} {before rest : List (Option Instr)} {e : Instr}
    (h : dueEvents s = before ++ some e :: rest) (hb : ∀ x ∈ before, x = none) : due s = some e := by
  have hnone : before.findSome? id = none := List.findSome?_eq_none_iff.mpr hb
  rw [due, h, List.findSome?_append, hnone]
  rfl

theorem due_of_none {s : State} (h : ∀ x ∈ dueEvents s, x = none) : due s = none :=
  List.findSome?_eq_none_iff.mpr h

theorem step_of_empty {s : State} (hp : s.pending = []) : step s = idle s := by
  rw [step, hp]

theorem idleStepTakesDueEventElsePassesTime : Claims.IdleStepTakesDueEventElsePassesTime := by
  intro s hp
  refine ⟨fun held => ?_, fun run before rest e h hb => ?_, fun run h => ?_⟩
  · simp [step_of_empty hp, idle, idleEvent, held, passMillisecond]
  · simp [step_of_empty hp, idle, idleEvent, run, due_of_first h hb]
  · simp [step_of_empty hp, idle, idleEvent, run, due_of_none h, passMillisecond, countDown, State.withFc]

theorem eventIf_eq (b : Bool) (e : Instr) : eventIf b e = if b = true then some e else none := rfl

/-- A buffer read out of the ring is none where there is no buffer (R139). -/
theorem buffers_getD (l : ListState) (j : Nat) : l.buffers.getD j none = (l.buffers[j]?).join := by
  rw [List.getD_eq_getElem?_getD]
  cases l.buffers[j]? <;> rfl

/-- A line is due for expiry when it has been SHOWN for the line expiry, which is not 0 (R149). -/
theorem expired_eq (l : ListState) (now j : Nat) :
    l.expired now j =
      (l.buffers[j]?).join.any fun x => decide (l.lineExpiry ≠ 0 ∧ x.shownAt + l.lineExpiry ≤ now) := by
  rw [ListState.expired, buffers_getD]
  cases (l.buffers[j]?).join <;> simp

/-- The min dwell is due when the bottom line has dwelt and the head is eligible; a stale head is (R143, R146). -/
theorem insertionDue_iff (s : State) :
    insertionDue s = true ↔
      ((s.ls.buffers[s.ls.bottom]?).join.any fun l => decide (l.shownAt + s.ls.minDwell ≤ s.localTime)) = true ∧
        (s.ls.queue.head?.any fun e => decide (e.tick + s.ls.leadDelay ≤ s.cmu.clock.value)) = true := by
  have hdwelt : bottomDwelt s =
      (s.ls.buffers[s.ls.bottom]?).join.any fun l => decide (l.shownAt + s.ls.minDwell ≤ s.localTime) := by
    rw [bottomDwelt, buffers_getD]
    cases (s.ls.buffers[s.ls.bottom]?).join <;> rfl
  rw [insertionDue, hdwelt, Bool.and_eq_true]
  refine and_congr_right fun _ => ?_
  cases s.ls.queue with
  | nil => simp
  | cons e rest =>
    simp only [ListState.eligible, ListState.staleEntry, List.head?_cons, Option.any_some, Bool.or_eq_true,
      decide_eq_true_eq]
    omega

theorem dueEventsInOrder : Claims.DueEventsInOrder := by
  intro s
  simp only [dueEvents, eventIf_eq, List.cons.injEq, and_true]
  refine ⟨?pass, ?clock, rfl, rfl, ?fills, ?line, ?dwell, ?feature, ?offer, ?tenure, ?grace, ?hold, ?scan⟩
  case pass => cases s.sa.position <;> rfl
  case clock => cases s.cmu.clock.state <;> simp [intervalEnded]
  case fills =>
    congr 3
    funext e
    cases hs : e.sentAt <;> simp [fillExpired, hs]
  case line => simp only [expiringLine, expired_eq]
  case dwell => simp only [insertionDue_iff, ListState.bottom, ListState.size]
  case feature => cases hs : s.fc.shown <;> simp [dwellOver, hs]
  case offer => cases hg : s.lc.grant <;> simp [offerExpired]
  case tenure =>
    cases hg : s.lc.grant with
    | held c from_ => simp only [mustWithdraw_iff hg]
    | idle | parked p | offered c t | withdrawing c grace => simp [mustWithdraw, hg]
  case grace =>
    cases hg : s.lc.grant with
    | withdrawing c grace => cases grace <;> simp [graceExpired]
    | idle | parked p | offered c t | held c from_ => simp [graceExpired]
  case hold => cases hs : s.lc.holdFrom <;> simp [holdExpired]
  case scan => simp [scanDue]

/-! ### Events that are not due (log 2) -/

theorem eventsThatAreNotDueChangeNothing : Claims.EventsThatAreNotDueChangeNothing := by
  intro s run
  refine ⟨fun noBurst tail => ⟨?_, ?_, ?_⟩, fun noReply => ?_, fun unheard h k p => ⟨?_, ?_⟩, fun c =>
    ⟨fun high => ?_, fun low => ?_⟩, fun free => ?_, exec_offerTimerExpiry_of_noOffer run, fun hg => ?_,
    fun hg => ?_, fun noHold => ?_, fun noPass => ?_⟩
  · show execNormalClose tail s = _
    rw [execNormalClose, event_of_running _ run]
    simp only [noBurst]
  · show execTurnClose tail s = _
    rw [execTurnClose, event_of_running _ run]
    simp only [noBurst]
  · show execCut tail s = _
    rw [execCut, event_of_running _ run]
    simp only [noBurst]
  · show execReplyBurstEnd s = _
    rw [execReplyBurstEnd, event_of_running _ run]
    simp only [noReply]
  · show execHeaderBad h s = _
    simp only [execHeaderBad, unheard]
  · show execUnknownKind k p s = _
    simp only [execUnknownKind, unheard]
  · show execRequestRaised c s = _
    rw [execRequestRaised, if_pos high]
  · show execRequestDropped c s = _
    rw [execRequestDropped, if_neg (by simp [low])]
  · show execBusyRelease s = _
    rw [execBusyRelease, if_pos (.inl (by simp [free]))]
  · rw [exec_tenureReached run, withdrawalTest_of_not_held hg, State.withLc_self]
  · show execWithdrawalGraceEnd s = _
    rw [execWithdrawalGraceEnd, event_of_running _ run]
    cases hgrant : s.lc.grant with
    | withdrawing c grace =>
      cases grace with
      | none => simp [graceExpired]
      | some t => exact absurd hgrant (hg c t)
    | idle | parked p | offered c t | held c t => rfl
  · rw [exec_holdLimit run, noHold, if_neg (by simp [holdExpired])]
  · show execPassVisit s = _
    rw [execPassVisit, event_of_running _ run]
    simp only [noPass]

/-- Settles O59: the idle step by its first due event, and each event's handler by the test it opens with. -/
theorem localTimeConventions : Obligations.LocalTimeConventions :=
  ⟨idleStepTakesDueEventElsePassesTime, dueEventsInOrder, eventsThatAreNotDueChangeNothing⟩

end Sys2Proof.Machine
end

section
/-! The turnaround and the bytes of what the device sends (sections 1.2, 1.4, 11.1 to 11.5). -/

namespace Sys2Proof.Machine

/-! ### The turnaround (R10, R12) -/

theorem replyPackets_eq (c : Channel) (e : ErrorRecord) (q : List Reply) :
    replyPackets c e q =
      if e.isEmpty then
        (if q.flatMap (replyPacketsOf c) = [] then [nothingPacket c] else q.flatMap (replyPacketsOf c))
      else linkReportPacket c e :: q.flatMap (replyPacketsOf c) := by
  unfold replyPackets
  by_cases he : e.isEmpty = true
  · rw [if_pos he, if_pos he, List.nil_append]
    cases q.flatMap (replyPacketsOf c) <;> rfl
  · rw [if_neg he, if_neg he]
    rfl

theorem turnCloseIsAnswered : Claims.TurnCloseIsAnswered := by
  intro c lost tail s run hb h
  dsimp only
  rw [exec_turnClose_of_taken tail run hb (closeErrors_of_lost_or_short c s h).symm]
  by_cases hwhole : lost = true ∨ tail = []
  · rw [if_pos hwhole, if_pos hwhole, turnaround, replyPackets_eq]
  · rw [if_neg hwhole, if_neg hwhole, turnaround, replyPackets_eq]
    simp [State.flagCut, State.updError]

/-! ### The end of a reply burst (R3, R12, R18, R19) -/

theorem replyBurstEndReturnsTheLine : Claims.ReplyBurstEndReturnsTheLine := by
  intro r s run sending
  rw [exec_replyBurstEnd run sending]
  congr 2
  cases hg : s.lc.grant with
  | idle | parked p | offered c since => simp [endExchange, settle, hg]
  | withdrawing c grace => simp [endExchange, settle, LinkState.busy, hg]
  | held c from_ =>
    rw [settle_endExchange_of_held (l := { s.lc with replyBurst := none }) _ hg]
    by_cases asks : s.lc.requestLine[c] = true
    · rw [endExchange_of_holder (l := { s.lc with replyBurst := none }) hg asks]
      simp only [asks]
      rfl
    · have low : s.lc.requestLine[c] = false := by simpa using asks
      rw [endExchange_of_low (l := { s.lc with replyBurst := none }) hg low, withdraw_eq]
      simp only [low, LinkState.busy, Option.isSome_none, Bool.or_false]
      rfl

/-! ### The checks (R176) -/

/-- A CRC register of generator `g` takes one bit (R176). -/
def crcTake {w : Nat} (g r : BitVec w) (x : Bool) : BitVec w :=
  (r <<< 1) ^^^ (if r.msb ≠ x then g else 0#w)

/-- `n` shifts of a CRC register of generator `g`. -/
def crcShift {w : Nat} (g : BitVec w) : Nat → BitVec w → BitVec w
  | 0, r => r
  | n + 1, r => crcShift g n (if r.msb then (r <<< 1) ^^^ g else r <<< 1)

theorem crc8Shift_eq (n : Nat) (r : BitVec 8) : crc8Shift n r = crcShift 0x07#8 n r := by
  induction n generalizing r with
  | zero => rfl
  | succ n ih => exact ih _

theorem crc16Shift_eq (n : Nat) (r : BitVec 16) : crc16Shift n r = crcShift 0x8005#16 n r := by
  induction n generalizing r with
  | zero => rfl
  | succ n ih => exact ih _

/-- A shift of a register with bits added in takes the highest of them and leaves the others to come. -/
theorem crcShift_one_xor {w : Nat} (g r b : BitVec w) :
    (if (r ^^^ b).msb then ((r ^^^ b) <<< 1) ^^^ g else (r ^^^ b) <<< 1) =
      crcTake g r b.msb ^^^ (b <<< 1) := by
  rw [crcTake, BitVec.msb_xor, BitVec.shiftLeft_xor_distrib]
  cases r.msb <;> cases b.msb <;> simp [BitVec.xor_assoc, BitVec.xor_comm g]

/-- `n` shifts of a register with bits added in take the highest `n` of them, highest first. -/
theorem crcShift_xor {w : Nat} (g : BitVec w) (n : Nat) (r b : BitVec w) :
    crcShift g n (r ^^^ b) = ((List.range n).map b.getMsbD).foldl (crcTake g) r ^^^ (b <<< n) := by
  induction n generalizing r b with
  | zero => simp [crcShift]
  | succ n ih =>
    have hbits : (List.range n).map (b <<< 1).getMsbD = (List.range n).map fun i => b.getMsbD (i + 1) := by
      simp
    rw [crcShift, crcShift_one_xor, ih, hbits, List.range_succ_eq_map, List.map_cons, List.map_map,
      List.foldl_cons, ← BitVec.shiftLeft_add, Nat.add_comm 1 n]
    rfl

/-- A byte's bits, most significant first. -/
theorem map_getMsbD_byte (b : Byte) :
    (List.range 8).map b.getMsbD = [7, 6, 5, 4, 3, 2, 1, 0].map fun i => b.getLsbD i := rfl

/-- The high byte of a CRC-16 register is taken most significant bit first. -/
theorem map_getMsbD_highByte (b : Byte) :
    (List.range 8).map (b ++ 0#8).getMsbD = [7, 6, 5, 4, 3, 2, 1, 0].map fun i => b.getLsbD i := by
  rw [← map_getMsbD_byte]
  refine List.map_congr_left fun i hi => ?_
  exact BitVec.getMsbD_append.trans (if_neg (not_le.mpr (List.mem_range.mp hi)))

/-- After 8 shifts nothing of a byte added in at the top is to come. -/
theorem highByte_shiftedOut (b : Byte) : (b ++ 0#8) <<< 8 = 0#16 := by
  have hb : (b ++ 0#8).toNat = b.toNat * 256 :=
    (BitVec.toNat_append b 0#8).trans (by simp [Nat.shiftLeft_eq])
  apply BitVec.eq_of_toNat_eq
  rw [BitVec.toNat_shiftLeft, hb, Nat.shiftLeft_eq]
  simp only [BitVec.toNat_ofNat]
  omega

theorem checksAreTheCrcsOfTheirGenerators : Claims.ChecksAreTheCrcsOfTheirGenerators := by
  intro l b
  refine ⟨rfl, rfl, ?_, ?_⟩
  · have hout : b <<< 8 = 0#8 := by simp
    rw [crc8, List.foldl_append, ← crc8, List.foldl_cons, List.foldl_nil, crc8Shift_eq, crcShift_xor,
      map_getMsbD_byte, hout, BitVec.xor_zero]
    rfl
  · rw [crc16, List.foldl_append, ← crc16, List.foldl_cons, List.foldl_nil, crc16Shift_eq, crcShift_xor,
      map_getMsbD_highByte, highByte_shiftedOut, BitVec.xor_zero]
    rfl

/-! ### Numbers and flags in bytes (5.6, 11.3 to 11.5) -/

theorem be32_eq_four (n : Nat) : be32 n = Claims.four n := by
  simp [be32, be16, Claims.four, Nat.div_div_eq_div_mul]

theorem sentLong_eq (kind : Nat) (c : Channel) (payload : List Byte) :
    sentLong kind c payload = Claims.longPacket (BitVec.ofNat 8 kind) c payload := rfl

/-- Five flags in a byte, the first in bit 0 (11.3, 11.5). -/
theorem flagsByte (a b c d e : Bool) :
    be8 (bit a + 2 * bit b + 4 * bit c + 8 * bit d + 16 * bit e) =
      [0#3 ++ BitVec.ofBool e ++ BitVec.ofBool d ++ BitVec.ofBool c ++ BitVec.ofBool b ++
        BitVec.ofBool a] := by
  revert a b c d e
  decide

theorem optLong_eq (x : Option Nat) :
    optLong x = (x.map Claims.four).getD [0xFF#8, 0xFF#8, 0xFF#8, 0xFF#8] := by
  cases x with
  | none => rfl
  | some n => exact be32_eq_four n

theorem optEighth_eq (x : Option (Fin 8)) :
    optEighth x = [(x.map fun k => BitVec.ofNat 8 k.val).getD 0xFF#8] := by
  cases x <;> rfl

theorem linkReportAndNothingBytes : Claims.LinkReportAndNothingBytes := by
  intro c e
  refine ⟨?_, rfl⟩
  rw [linkReportPacket, sentLong_eq, flagsByte]
  congr 1
  cases e.first with
  | none => rfl
  | some f =>
    obtain ⟨kind, reason⟩ := f
    cases reason <;> rfl

/-! ### Record (11.5) -/

/-- STALE, held and the fill state in a byte (11.5). -/
theorem recordFlagsByte (stale held : Bool) (fill : FillState) :
    be8 (bit stale + 2 * bit held + 4 * fillCode fill) =
      [0#4 ++ (match fill with
        | .new => 0#2
        | .filled => 1#2
        | .unfilled => 2#2) ++ BitVec.ofBool held ++ BitVec.ofBool stale] := by
  cases fill <;> revert stale held <;> decide

/-- An upstream time, with distance 0 and all ones for an absent one (11.5). -/
theorem upstream_eq (x : Option (Nat × Nat)) :
    (match x with
      | some (distance, time) => be16 distance ++ be32 time
      | none => be16 0 ++ optLong none) =
    match x with
      | some (distance, time) => Claims.two distance ++ Claims.four time
      | none => [0#8, 0#8] ++ [0xFF#8, 0xFF#8, 0xFF#8, 0xFF#8] := by
  cases x with
  | none => rfl
  | some u => exact congrArg (be16 u.1 ++ ·) (be32_eq_four u.2)

/-- A pass block with its codes, its flags in one byte and all ones for what is absent (11.5). -/
theorem passBlock_eq (p : Option Pass) (d : Derived) :
    passBlock p d =
      (match p with
        | some q =>
          Claims.four q.tick ++
            [match q.source with
              | .markedA => 0#8 | .markedB => 1#8 | .timedA => 2#8 | .timedB => 3#8
              | .corrected => 4#8,
            BitVec.ofNat 8 q.count]
        | none => [0xFF#8, 0xFF#8, 0xFF#8, 0xFF#8] ++ [0xFF#8, 0#8]) ++
        (d.raceTime.map Claims.four).getD [0xFF#8, 0xFF#8, 0xFF#8, 0xFF#8] ++
        (d.pace.map Claims.four).getD [0xFF#8, 0xFF#8, 0xFF#8, 0xFF#8] ++
        (d.projection.map Claims.four).getD [0xFF#8, 0xFF#8, 0xFF#8, 0xFF#8] ++
        [0#3 ++ BitVec.ofBool d.projCapped ++ BitVec.ofBool d.paceCapped ++
          BitVec.ofBool d.beforeGun ++ BitVec.ofBool d.noGun ++ BitVec.ofBool d.noWave] := by
  unfold passBlock
  rw [derivedFlags, flagsByte, optLong_eq d.raceTime, optLong_eq d.pace, optLong_eq d.projection]
  congr 4
  cases p with
  | none => rfl
  | some q =>
    obtain ⟨tick, source, count⟩ := q
    dsimp only
    rw [be32_eq_four]
    cases source <;> rfl

@[simp] theorem length_optLong (x : Option Nat) : (optLong x).length = 4 := by
  cases x <;> rfl

@[simp] theorem length_optEighth (x : Option (Fin 8)) : (optEighth x).length = 1 := by
  cases x <;> rfl

@[simp] theorem length_leftText (width : Nat) (text : List Byte) :
    (leftText width text).length = width := by
  simp only [leftText, spaces, List.length_append, List.length_take, List.length_replicate]
  omega

theorem length_passBlock (p : Option Pass) (d : Derived) : (passBlock p d).length = 19 := by
  cases p <;> simp [passBlock, be32, be16, be8]

theorem length_recordPayload (slot : Slot) (r : Record) (held : Bool) :
    (recordPayload slot r held).length = 72 := by
  rw [recordPayload]
  cases r.upstream <;> simp [length_passBlock, be32, be16, be8]

/-- The bytes of a Record before the upstream time: slot, bib, flags, pin and the two waves (11.5). -/
theorem recordHead_eq (slot : Slot) (r : Record) (held : Bool) :
    be8 slot.val ++ be16 r.bib ++ be8 (bit r.stale + 2 * bit held + 4 * fillCode r.fill) ++
        optEighth r.pin ++ optEighth r.fillWave ++ optEighth r.waveInUse =
      [BitVec.ofNat 8 slot.val] ++ Claims.two r.bib ++
        [0#4 ++ (match r.fill with
            | .new => 0#2
            | .filled => 1#2
            | .unfilled => 2#2) ++ BitVec.ofBool held ++ BitVec.ofBool r.stale,
          (r.pin.map fun k => BitVec.ofNat 8 k.val).getD 0xFF#8,
          (r.fillWave.map fun k => BitVec.ofNat 8 k.val).getD 0xFF#8,
          (r.waveInUse.map fun k => BitVec.ofNat 8 k.val).getD 0xFF#8] := by
  rw [recordFlagsByte, optEighth_eq, optEighth_eq, optEighth_eq]
  rfl

theorem recordReplyBytes : Claims.RecordReplyBytes := by
  intro c slot r held
  dsimp only
  have hpayload : recordPayload slot r held = _ :=
    congrArg₂ (· ++ ·)
      (congrArg₂ (· ++ ·)
        (congrArg (· ++ be8 (r.name.getD []).length ++ leftText 20 (r.name.getD []))
          (congrArg₂ (· ++ ·) (recordHead_eq slot r held) (upstream_eq r.upstream)))
        (passBlock_eq r.pass1 r.derived1))
      (passBlock_eq r.pass2 r.derived2)
  constructor
  · exact (congrArg List.length hpayload).symm.trans (length_recordPayload slot r held)
  · rw [replyPacketsOf, sentLong_eq, hpayload]
    rfl

/-! ### Fill List, Log Entries, Lines and Status (11.3, 11.5) -/

/-- Reader, timed flag and gap flag in a byte (11.5). -/
theorem infoByte (reader : Reader) (timed gap : Bool) :
    be8 (bit (reader == .b) + 2 * bit timed + 128 * bit gap) =
      [BitVec.ofBool gap ++ 0#5 ++ BitVec.ofBool timed ++ BitVec.ofBool (decide (reader = .b))] := by
  cases reader <;> revert timed gap <;> decide

/-- A log entry with its flags and its class code in one byte each (11.5). -/
theorem logEntryBytes_eq (e : LogEntry) :
    logEntryBytes e =
      Claims.two e.number.toNat ++ Claims.two e.bib ++
        [BitVec.ofBool e.gapBefore ++ 0#5 ++ BitVec.ofBool e.timed ++
            BitVec.ofBool (decide (e.reader = .b)),
          match e.cls with
          | .pass1 => 1#8 | .pass2 => 2#8 | .revision1 => 3#8 | .revision2 => 4#8 | .extra => 5#8
          | .duplicate => 0#8,
          (e.wave.map fun w => BitVec.ofNat 8 w.val).getD 0xFF#8] ++
        Claims.four e.tick := by
  rw [logEntryBytes, infoByte, optEighth_eq, be32_eq_four]
  cases e.cls <;> rfl

theorem fillListAndLogReplyBytes : Claims.FillListAndLogReplyBytes := by
  intro c
  refine ⟨fun left bibs => rfl, fun oldest next count entries _ => ⟨fun e => rfl, ?_⟩⟩
  rw [replyPacketsOf, sentLong_eq, List.flatMap_congr fun e _ => logEntryBytes_eq e]
  rfl

theorem linesReplyPackets : Claims.LinesReplyPackets := by
  intro c n b first rows
  refine ⟨fun h => ?_, fun h => ?_⟩
  · rw [replyPacketsOf, linesPackets, if_pos h]
    rfl
  · rw [replyPacketsOf, linesPackets, if_neg (by omega)]
    rfl

/-- Six flags in a byte with bits 7 and 6 clear (11.5). -/
theorem be8_six (x : BitVec 6) : be8 x.toNat = [0#2 ++ x] := by
  have hx : (0#2 ++ x).toNat = x.toNat := (BitVec.toNat_append 0#2 x).trans (by simp)
  rw [be8, ← hx, BitVec.ofNat_toNat, BitVec.setWidth_eq]

theorem statusReplyBytes : Claims.StatusReplyBytes := by
  intro c t
  refine ⟨by simp [Claims.four, Claims.two], ?_⟩
  rw [replyPacketsOf, sentLong_eq, statusPayload, be32_eq_four, optEighth_eq, be8_six, be8_six]
  cases t.clock.state <;> cases t.marks <;>
    simp only [be8, be16, Claims.two, Claims.four, List.cons_append, List.nil_append, clockCode]

/-- Settles O13: the turnaround is the list of `replyPackets`, and each packet is its claimed bytes field by field. -/
theorem turnaroundResult : Obligations.TurnaroundResult :=
  ⟨turnCloseIsAnswered, replyBurstEndReturnsTheLine, checksAreTheCrcsOfTheirGenerators,
    linkReportAndNothingBytes, recordReplyBytes, fillListAndLogReplyBytes, linesReplyPackets, statusReplyBytes⟩

end Sys2Proof.Machine
end

section
/-! What the shared operations of list, band and board reach, said once as frames: an operation that changes
the list alone, the band alone or the image alone. Frames compose, so each operation's frame follows from those
of its steps (chapters 7 to 9). -/

namespace Sys2Proof.Machine

/-! ### The three frames -/

theorem onlyImage_iff {s t : State} : OnlyImage s t ↔ ∃ image, t = s.withBi { s.bi with image } :=
  ⟨fun h => ⟨_, h⟩, by rintro ⟨image, rfl⟩; rfl⟩

theorem onlyList_iff {s t : State} :
    OnlyList s t ↔ ∃ buffers top queue drops holds image,
      t = ((s.withLs { s.ls with buffers, top, queue, drops }).withRt { s.rt with holds }).withBi
        { s.bi with image } :=
  ⟨fun h => ⟨_, _, _, _, _, _, h⟩, by rintro ⟨_, _, _, _, _, _, rfl⟩; rfl⟩

theorem onlyBand_iff {s t : State} :
    OnlyBand s t ↔ ∃ fc holds image,
      t = ((s.withFc fc).withRt { s.rt with holds }).withBi { s.bi with image } :=
  ⟨fun h => ⟨_, _, _, h⟩, by rintro ⟨_, _, _, rfl⟩; rfl⟩

theorem onlyImage_refl (s : State) : OnlyImage s s := rfl
theorem onlyList_refl (s : State) : OnlyList s s := rfl
theorem onlyBand_refl (s : State) : OnlyBand s s := rfl

theorem OnlyList.trans {s t u : State} (h : OnlyList s t) (h' : OnlyList t u) : OnlyList s u := by
  rw [onlyList_iff] at *
  obtain ⟨_, _, _, _, _, _, rfl⟩ := h
  obtain ⟨_, _, _, _, _, _, rfl⟩ := h'
  exact ⟨_, _, _, _, _, _, rfl⟩

theorem OnlyBand.trans {s t u : State} (h : OnlyBand s t) (h' : OnlyBand t u) : OnlyBand s u := by
  rw [onlyBand_iff] at *
  obtain ⟨_, _, _, rfl⟩ := h
  obtain ⟨_, _, _, rfl⟩ := h'
  exact ⟨_, _, _, rfl⟩

theorem OnlyImage.onlyList {s t : State} (h : OnlyImage s t) : OnlyList s t := by
  obtain ⟨_, rfl⟩ := onlyImage_iff.mp h
  rfl

theorem OnlyImage.onlyBand {s t : State} (h : OnlyImage s t) : OnlyBand s t := by
  obtain ⟨_, rfl⟩ := onlyImage_iff.mp h
  rfl

/-! ### Writing the image (R135, R139, R155) -/

theorem writeLines_onlyImage (s : State) (first : Nat) (rows : List (List Cell)) :
    OnlyImage s (s.writeLines first rows) := rfl

theorem renderBand_onlyImage (s : State) : OnlyImage s (renderBand s) := rfl

theorem renderIdleClock_onlyImage (s : State) : OnlyImage s (renderIdleClock s) := by
  rcases renderIdleClock_cases s with h | ⟨-, -, h⟩
  · rw [h]
    rfl
  · rw [h]
    exact writeLines_onlyImage s 0 _

/-! ### The list controller (R144 to R149) -/

theorem dropHead_onlyList (e : QueueEntry) (rest : List QueueEntry) (s : State) :
    OnlyList s (dropHead e rest s) := rfl

theorem insertHead_onlyList (e : QueueEntry) (rest : List QueueEntry) (s : State) :
    OnlyList s (insertHead e rest s) := by
  rw [onlyList_iff, insertHead_frame]
  exact ⟨_, _, _, _, _, _, rfl⟩

theorem emptyBuffer_onlyList (j : Nat) (s : State) : OnlyList s (emptyBuffer j s) := by
  rw [onlyList_iff, emptyBuffer_frame]
  exact ⟨_, _, _, _, _, _, rfl⟩

theorem rerenderBuffer_onlyList (j : Nat) (line : ListLine) (pass : PassNo) (s : State) :
    OnlyList s (rerenderBuffer j line pass s) := rfl

/-- A head test is a run of drops and insertions (R146). -/
theorem headTestSteps_onlyList (n : Nat) (s : State) : OnlyList s (headTestSteps n s) := by
  induction n generalizing s with
  | zero => exact onlyList_refl s
  | succ n ih =>
    unfold headTestSteps
    split
    · exact onlyList_refl s
    · rename_i e rest _
      split
      · exact (dropHead_onlyList e rest s).trans (ih _)
      · split
        · exact (insertHead_onlyList e rest s).trans (ih _)
        · exact onlyList_refl s

theorem headTest_onlyList (s : State) : OnlyList s (headTest s) := headTestSteps_onlyList _ s

theorem expireLines_onlyList (n : Nat) (s : State) : OnlyList s (expireLines n s) := by
  induction n with
  | zero => exact onlyList_refl s
  | succ n ih =>
    unfold expireLines
    dsimp only
    split
    · exact ih.trans (emptyBuffer_onlyList n _)
    · exact ih

/-- A new queue, and a hold on one slot, change the list alone (R144). -/
theorem withQueue_hold_onlyList (s : State) (queue : List QueueEntry) (slot : Slot) :
    OnlyList s ((s.withLs { s.ls with queue }).withRt (s.rt.hold slot)) := rfl

/-- A queue entry given another pass and tick changes the list alone (R144). -/
theorem withQueue_onlyList (s : State) (queue : List QueueEntry) :
    OnlyList s (s.withLs { s.ls with queue }) := rfl

theorem arrive_onlyList (slot : Slot) (bib : Nat) (pass : PassNo) (tick : Nat) (s : State) :
    OnlyList s (arrive slot bib pass tick s) := by
  unfold arrive
  split
  · split
    · exact rerenderBuffer_onlyList _ _ pass s
    · exact onlyList_refl s
  · dsimp only
    split
    · have queued := withQueue_onlyList s
        (s.ls.queue.map fun e => if e.slot = slot then { e with pass, tick } else e)
      split
      · split
        · exact queued.trans (headTest_onlyList _)
        · exact queued
      · exact queued
    · split
      · exact (withQueue_hold_onlyList s _ slot).trans (headTest_onlyList _)
      · rename_i e rest _
        split
        · exact (dropHead_onlyList e rest s).trans
            ((withQueue_hold_onlyList _ _ slot).trans (headTest_onlyList _))
        · exact withQueue_hold_onlyList s _ slot

/-- A change of the clock's value writes the idle band clock and then tests the head (R135, R146). -/
theorem clockValueChanged_onlyList (s : State) : OnlyList s (clockValueChanged s) :=
  (renderIdleClock_onlyImage s).onlyList.trans (headTest_onlyList _)

/-! ### The feature controller (R127 to R130) -/

/-- A feature controller replaced and the band rendered. -/
theorem renderBand_withFc_onlyBand (s : State) (f : FeatureState) : OnlyBand s (renderBand (s.withFc f)) :=
  rfl

theorem selectFeature_onlyBand (s : State) : OnlyBand s (selectFeature s) := by
  unfold selectFeature
  split
  · exact renderBand_withFc_onlyBand s _
  · exact onlyBand_refl s

theorem testPreemption_onlyBand (s : State) : OnlyBand s (testPreemption s) := by
  unfold testPreemption
  split
  · exact renderBand_withFc_onlyBand s _
  · exact onlyBand_refl s

theorem selectOrTest_onlyBand (s : State) : OnlyBand s (selectOrTest s) := by
  unfold selectOrTest
  split
  · exact selectFeature_onlyBand s
  · exact testPreemption_onlyBand s

theorem finishFeature_onlyBand (deleted : Bool) (g : Feature) (s : State) :
    OnlyBand s (finishFeature deleted g s) := by
  unfold finishFeature
  split
  · rfl
  · split <;> rfl

/-- The feature controller replaced before operations of the band. -/
theorem onlyBand_of_withFc {s t : State} {f : FeatureState} (h : OnlyBand (s.withFc f) t) : OnlyBand s t :=
  OnlyBand.trans (t := s.withFc f) rfl h

theorem endShown_onlyBand (deleted : Bool) (s : State) : OnlyBand s (endShown deleted s) := by
  unfold endShown
  split
  · exact onlyBand_of_withFc (finishFeature_onlyBand deleted _ _)
  · exact onlyBand_refl s

theorem endAndSelect_onlyBand (deleted : Bool) (s : State) : OnlyBand s (endAndSelect deleted s) :=
  (endShown_onlyBand deleted s).trans (selectFeature_onlyBand _)

/-- A fold of operations of the band is one. -/
theorem foldl_onlyBand {α : Type} {op : State → α → State} (h : ∀ s a, OnlyBand s (op s a)) (l : List α)
    (s : State) : OnlyBand s (l.foldl op s) := by
  induction l generalizing s with
  | nil => exact onlyBand_refl s
  | cons a l ih => exact (h s a).trans (ih _)

theorem removeSuspended_onlyBand (deleted : Bool) (gone : Feature → Bool) (s : State) :
    OnlyBand s (removeSuspended deleted gone s) :=
  onlyBand_of_withFc (foldl_onlyBand (fun t g => finishFeature_onlyBand deleted g t) _ _)

theorem dropOldest_onlyBand (k : Level) (s : State) : OnlyBand s (dropOldest k s) := by
  rcases dropOldest_cases k s with ⟨-, h⟩ | ⟨e, rest, -, -, h⟩
  · rw [h]
    rfl
  · rw [h]
    rfl

theorem queueEntry_onlyBand (k : Level) (e : FeatureEntry) (s : State) : OnlyBand s (queueEntry k e s) := rfl

theorem requestFeature_onlyBand (k : Level) (e : FeatureEntry) (s : State) :
    OnlyBand s (requestFeature k e s) := by
  unfold requestFeature
  split
  · exact (renderBand_onlyImage s).onlyBand
  · split
    · exact onlyBand_refl s
    · exact ((dropOldest_onlyBand k s).trans (queueEntry_onlyBand k e _)).trans (selectOrTest_onlyBand _)

theorem postChecked_onlyBand (m : Fin 8) (k : Level) (duration : Nat) (lines : List (List Byte)) (s : State) :
    OnlyBand s (postChecked m k duration lines s) := by
  unfold postChecked
  split
  · exact onlyBand_of_withFc (selectOrTest_onlyBand _)
  · dsimp only
    split
    · split
      · exact onlyBand_of_withFc (selectFeature_onlyBand _)
      · split
        · rfl
        · exact onlyBand_of_withFc (testPreemption_onlyBand _)
    · exact renderBand_withFc_onlyBand s _
    · rfl

theorem deleteStored_onlyBand (m : Fin 8) (s : State) : OnlyBand s (deleteStored m s) := by
  unfold deleteStored
  split
  · exact onlyBand_refl s
  · split
    · exact endAndSelect_onlyBand true s
    · exact removeSuspended_onlyBand true _ s
    · rfl

theorem maskLevel_onlyBand (k : Level) (s : State) : OnlyBand s (maskLevel k s) := by
  unfold maskLevel
  split
  · exact (endShown_onlyBand false s).trans (removeSuspended_onlyBand false _ _)
  · exact removeSuspended_onlyBand false _ s

theorem maskLevels_onlyBand (old new : BitVec 8) (s : State) : OnlyBand s (maskLevels old new s) :=
  foldl_onlyBand (fun t k => maskLevel_onlyBand k t) _ s

/-! ### The clock and mark unit is outside both frames -/

theorem OnlyList.cmu {s t : State} (h : OnlyList s t) : t.cmu = s.cmu := by
  rw [h]
  rfl

theorem OnlyBand.cmu {s t : State} (h : OnlyBand s t) : t.cmu = s.cmu := by
  rw [h]
  rfl

/-! ### Re-renders (R136, R141) -/

/-- A line's place, pass and shown time: what a re-render keeps of it (R141). -/
def linePlace (line : ListLine) : Slot × Nat × PassNo × Nat := (line.slot, line.bib, line.pass, line.shownAt)

/-- `t` is `s` with nothing changed but the image and the cells of list lines (R141). -/
def OnlyCells (s t : State) : Prop :=
  t = (s.withLs { s.ls with buffers := t.ls.buffers }).withBi { s.bi with image := t.bi.image } ∧
    t.ls.buffers.map (Option.map linePlace) = s.ls.buffers.map (Option.map linePlace)

theorem onlyCells_iff {s t : State} :
    OnlyCells s t ↔ ∃ buffers image, t = (s.withLs { s.ls with buffers }).withBi { s.bi with image } ∧
      buffers.map (Option.map linePlace) = s.ls.buffers.map (Option.map linePlace) :=
  ⟨fun ⟨h, places⟩ => ⟨_, _, h, places⟩, by rintro ⟨_, _, rfl, places⟩; exact ⟨rfl, places⟩⟩

theorem onlyCells_refl (s : State) : OnlyCells s s := ⟨rfl, rfl⟩

theorem OnlyCells.trans {s t u : State} (h : OnlyCells s t) (h' : OnlyCells t u) : OnlyCells s u := by
  rw [onlyCells_iff] at *
  obtain ⟨_, _, rfl, places⟩ := h
  obtain ⟨_, _, rfl, places'⟩ := h'
  exact ⟨_, _, rfl, places'.trans places⟩

/-- A rendered line stands where its reference says. -/
theorem linePlace_renderedLine (t : RunnerTable) (slot : Slot) (bib : Nat) (pass : PassNo) (shownAt : Nat) :
    linePlace (renderedLine t slot bib pass shownAt) = (slot, bib, pass, shownAt) := rfl

/-- A buffer rendered again for its own pass keeps its line's place. -/
theorem rerenderBuffer_onlyCells {j : Nat} {line : ListLine} {s : State}
    (h : s.ls.buffers.getD j none = some line) : OnlyCells s (rerenderBuffer j line line.pass s) := by
  refine onlyCells_iff.mpr ⟨_, _, rerenderBuffer_frame j line line.pass s, ?_⟩
  have hj : s.ls.buffers[j]? = some (some line) := by
    cases hb : s.ls.buffers[j]? <;> simp_all
  rw [List.map_set, Option.map_some, linePlace_renderedLine]
  refine List.ext_getElem? fun n => ?_
  rw [List.getElem?_set]
  split
  · rename_i hn
    subst hn
    obtain ⟨hlt, -⟩ := List.getElem?_eq_some_iff.mp hj
    rw [List.length_map, if_pos hlt, List.getElem?_map, hj]
    rfl
  · rfl

theorem rerenderLine_onlyCells (i : Slot) (s : State) : OnlyCells s (rerenderLine i s) := by
  unfold rerenderLine
  split
  · split
    · rename_i h
      exact rerenderBuffer_onlyCells h
    · exact onlyCells_refl s
  · exact onlyCells_refl s

theorem rerenderBand_onlyImage (i : Slot) (s : State) : OnlyImage s (rerenderBand i s) := by
  unfold rerenderBand
  split
  · split
    · exact renderBand_onlyImage s
    · exact onlyImage_refl s
  · exact onlyImage_refl s

theorem OnlyImage.onlyCells {s t : State} (h : OnlyImage s t) : OnlyCells s t := by
  obtain ⟨_, rfl⟩ := onlyImage_iff.mp h
  exact ⟨rfl, rfl⟩

/-- A re-render of a slot reaches the cells of its list line and the band (R59, R101). -/
theorem rerender_onlyCells (i : Slot) (s : State) : OnlyCells s (rerender i s) :=
  (rerenderLine_onlyCells i s).trans (rerenderBand_onlyImage i _).onlyCells

theorem OnlyCells.onlyList {s t : State} (h : OnlyCells s t) : OnlyList s t := by
  obtain ⟨_, _, rfl, -⟩ := onlyCells_iff.mp h
  rfl

/-! ### The statement -/

theorem clockChangeReachesOnlyTheBoard : Claims.ClockChangeReachesOnlyTheBoard :=
  clockValueChanged_onlyList

theorem rerenderReachesOnlyTheBoard : Claims.RerenderReachesOnlyTheBoard := rerender_onlyCells

/-- Lines written from the top of the board stand before the lines below them. -/
theorem writeRows_zero (rows image : List (List Cell)) :
    writeRows 0 rows image = rows ++ image.drop rows.length := by
  simp [writeRows]

theorem bandEventsReachOnlyTheBand : Claims.BandEventsReachOnlyTheBand := by
  intro s deleted gone
  refine ⟨selectOrTest_onlyBand s, selectFeature_onlyBand s, testPreemption_onlyBand s,
    endShown_onlyBand deleted s, removeSuspended_onlyBand deleted gone s, renderBand_onlyImage s, ?_⟩
  show writeRows 0 (bandRows s) s.bi.image = _
  rw [writeRows_zero, bandRows_length]

theorem listEventsReachOnlyTheList : Claims.ListEventsReachOnlyTheList := fun s slot bib pass tick n =>
  ⟨arrive_onlyList slot bib pass tick s, headTest_onlyList s, expireLines_onlyList n s⟩

/-- Settles O50: the frames of the operations, composed from those of their steps. -/
theorem operationsReachOnlyTheirBlocks : Obligations.OperationsReachOnlyTheirBlocks :=
  ⟨fun _ => rfl, clockChangeReachesOnlyTheBoard, rerenderReachesOnlyTheBoard, bandEventsReachOnlyTheBand,
    listEventsReachOnlyTheList⟩

end Sys2Proof.Machine
end

section
/-! The race clock and the marks: what Clock Set, Stop, Trim and Advance make of the clock, and what a pulse and
an expiry make of a reader's marks (sections 2.1 and 2.2). -/

namespace Sys2Proof.Machine

/-! ### A delivered packet by its owner's answer (R7, R9) -/

theorem receive_of_done {k : Kind} {p : Packet} {c : Channel} {s t : State}
    {owner : Channel → State → Answer} (hd : Delivered k c p s) (h : owner c s = .done t) :
    receive k p owner s = .next t := by
  rw [receive_delivered owner hd, h]

theorem receive_of_refused {k : Kind} {p : Packet} {c : Channel} {s t : State} {r : Reason}
    {owner : Channel → State → Answer} (hd : Delivered k c p s) (h : owner c s = .refused r t) :
    receive k p owner s = .next (t.refuse c (kindCode k) r) := by
  rw [receive_delivered owner hd, h]

/-! ### The clock (R23 to R26) -/

theorem isRunning_iff (k : Clock) : k.isRunning = true ↔ ∃ start, k.state = .running start := by
  unfold Clock.isRunning
  split <;> simp_all

theorem clockLoaded_of_lt {now tick : Nat} (h : tick < 16777215) :
    clockLoaded now tick = { value := tick, state := .running now } := if_pos h

theorem clockSet_of_notRunning {tick : Nat} {s : State} (range : tick ≤ 16777215)
    (rest : s.cmu.clock.isRunning = false) :
    clockSet tick s = .done (clockValueChanged (s.withClock (clockLoaded s.localTime tick))) := by
  rw [clockSet, if_neg (by simpa using range), rest]
  rfl

theorem clockSet_of_running {tick start : Nat} {s : State} (range : tick ≤ 16777215)
    (running : s.cmu.clock.state = .running start) : clockSet tick s = .refused .clockRunning s := by
  rw [clockSet, if_neg (by simpa using range), if_pos ((isRunning_iff _).mpr ⟨start, running⟩)]

/-- Settles O20: by the range of the tick, then by the clock state, then by whether the tick is the maximum. -/
theorem clockSetResult : Obligations.ClockSetResult := by
  intro c p s hd tick set
  refine ⟨?_, fun k => clockValueChanged_onlyList _⟩
  show execClockSet p s = _
  by_cases range : 16777215 < tick
  · rw [if_pos range]
    exact receive_of_refused hd (if_pos range)
  · rw [if_neg range]
    have range := Nat.le_of_not_lt range
    have loaded (rest : s.cmu.clock.isRunning = false) :
        execClockSet p s = .next
          (if tick = 16777215 then set { value := 16777215, state := .full }
           else set { value := tick, state := .running s.localTime }) := by
      refine (receive_of_done hd (clockSet_of_notRunning range rest)).trans (congrArg _ ?_)
      split
      · rename_i full
        rw [full]
        rfl
      · exact congrArg set (clockLoaded_of_lt (by omega))
    cases hk : s.cmu.clock.state with
    | running start => exact receive_of_refused hd (clockSet_of_running range hk)
    | stopped => exact loaded (by simp [Clock.isRunning, hk])
    | full => exact loaded (by simp [Clock.isRunning, hk])

theorem clockStop_of_stopped {s : State} (h : s.cmu.clock.state = .stopped) : clockStop s = s := by
  simp [clockStop, h]

/-- A clock that is RUNNING or FULL keeps its value, and the idle band clock is rendered again (R25, R135). -/
theorem clockStop_of_not_stopped {s : State} (h : s.cmu.clock.state ≠ .stopped) :
    clockStop s = renderIdleClock (s.withClock { s.cmu.clock with state := .stopped }) := by
  unfold clockStop
  split
  · contradiction
  · rfl
  · rfl

/-- Settles O21: a STOPPED clock is left as it is; any other is stopped and its change rendered. -/
theorem clockStopResult : Obligations.ClockStopResult := by
  intro c p s hd cmu
  have ran : execClockStop p s = .next (clockStop s) := receive_of_done hd rfl
  refine ⟨clockStop s, ran, ?_⟩
  by_cases h : s.cmu.clock.state = .stopped
  · have same : cmu = s.cmu := by
      show { s.cmu with clock := { s.cmu.clock with state := .stopped } } = s.cmu
      rw [← h]
    rw [clockStop_of_stopped h, same]
    exact ⟨rfl, onlyImage_refl s, fun _ => rfl, absurd h⟩
  · have image := renderIdleClock_onlyImage (s.withCmu cmu)
    rw [clockStop_of_not_stopped h]
    exact ⟨image.onlyList.cmu, image, fun stopped => absurd stopped h, fun _ => rfl⟩

theorem clockTrimmed_of_max {start value : Nat} {amount : Int}
    (h : 16777215 ≤ (value : Int) + trimAmount amount) :
    clockTrimmed start value amount = { value := 16777215, state := .full } := if_pos h

theorem clockTrimmed_of_lt {start value : Nat} {amount : Int}
    (h : ¬ 16777215 ≤ (value : Int) + trimAmount amount) :
    clockTrimmed start value amount =
      { value := ((value : Int) + trimAmount amount).toNat, state := .running start } := if_neg h

theorem clockTrim_of_running {s : State} {start : Nat} (amount : Int)
    (running : s.cmu.clock.state = .running start) :
    clockTrim amount s =
      if clockTrimmed start s.cmu.clock.value amount = s.cmu.clock then .done s
      else .done (clockValueChanged (s.withClock (clockTrimmed start s.cmu.clock.value amount))) := by
  simp [clockTrim, running]

/-- Settles O22: by the clock state; in RUNNING by whether the sum reaches the maximum, then by whether it moves
the value. -/
theorem clockTrimResult : Obligations.ClockTrimResult := by
  intro c p s hd sum set
  show execClockTrim p s = _
  cases hk : s.cmu.clock.state with
  | stopped | full => exact receive_of_refused hd (by simp [clockTrim, hk])
  | running start =>
    have trim := clockTrim_of_running (paramSigned p) hk
    dsimp only
    split
    · rename_i reaches
      rw [clockTrimmed_of_max (amount := paramSigned p) reaches, if_neg fun same => by simp [← same] at hk] at trim
      exact receive_of_done hd trim
    · rename_i below
      rw [clockTrimmed_of_lt (amount := paramSigned p) below] at trim
      have same : (⟨sum.toNat, .running start⟩ : Clock) = s.cmu.clock ↔ sum.toNat = s.cmu.clock.value := by
        rw [← hk]
        exact ⟨congrArg Clock.value, fun h => by rw [h]⟩
      split
      · rename_i still
        exact receive_of_done hd (trim.trans (if_pos (same.mpr still)))
      · rename_i moved
        exact receive_of_done hd (trim.trans (if_neg fun h => moved (same.mp h)))

theorem clockAdvanced_of_lt {start value : Nat} (h : value < 16777214) :
    clockAdvanced start value = { value := value + 1, state := .running (start + 10) } :=
  if_pos (by simp; omega)

theorem clockAdvanced_of_max {start value : Nat} (h : 16777214 ≤ value) :
    clockAdvanced start value = { value := 16777215, state := .full } :=
  if_neg (by simp; omega)

theorem clockAdvanceResult : Claims.ClockAdvanceResult := by
  intro s run set
  show execClockAdvance s = _
  rw [execClockAdvance, event_of_running _ run]
  congr 1
  cases hk : s.cmu.clock.state with
  | stopped | full => rfl
  | running start =>
    dsimp only
    by_cases early : s.localTime < start + 10
    · rw [if_pos early, if_neg (by simpa [intervalEnded] using early)]
    · rw [if_neg early, if_pos (by simpa [intervalEnded] using early)]
      split
      · rename_i full
        exact congrArg set (clockAdvanced_of_max full)
      · exact congrArg set (clockAdvanced_of_lt (by omega))

/-! ### Each reader's marks and counts (R28, R32) -/

theorem eachReaderHasItsOwn : Claims.EachReaderHasItsOwn :=
  ⟨fun _ => ⟨rfl, rfl, fun _ => ⟨rfl, rfl⟩⟩, fun _ => ⟨rfl, rfl, fun _ => ⟨rfl, rfl⟩⟩, isRunning_iff⟩

@[simp] theorem CmuState.withMarks_marks (x : CmuState) (r : Reader) (m : ReaderMarks) :
    (x.withMarks r m).marks r = m := by
  cases r <;> rfl

@[simp] theorem CmuState.withMarks_clock (x : CmuState) (r : Reader) (m : ReaderMarks) :
    (x.withMarks r m).clock = x.clock := by
  cases r <;> rfl

@[simp] theorem CmuState.withMarks_withMarks (x : CmuState) (r : Reader) (m n : ReaderMarks) :
    (x.withMarks r m).withMarks r n = x.withMarks r n := by
  cases r <;> rfl

@[simp] theorem State.withMarks_cmu (s : State) (r : Reader) (m : ReaderMarks) :
    (s.withMarks r m).cmu = s.cmu.withMarks r m := rfl
@[simp] theorem State.withMarks_localTime (s : State) (r : Reader) (m : ReaderMarks) :
    (s.withMarks r m).localTime = s.localTime := rfl
@[simp] theorem State.countOrphan_cmu (s : State) (r : Reader) : (s.countOrphan r).cmu = s.cmu := rfl
@[simp] theorem State.countOrphan_localTime (s : State) (r : Reader) :
    (s.countOrphan r).localTime = s.localTime := rfl
@[simp] theorem State.withMarks_withMarks (s : State) (r : Reader) (m n : ReaderMarks) :
    (s.withMarks r m).withMarks r n = s.withMarks r n := by
  simp [State.withMarks]

/-! ### Pulses (R29) -/

/-- A captured mark joins the tail of the queue (R29). -/
theorem captureMark_of_room {r : Reader} {n : BitVec 8} {s : State} (room : (s.cmu.marks r).queue.length < 32) :
    captureMark r n s =
      s.withMarks r
        { s.cmu.marks r with
          queue := (s.cmu.marks r).queue ++
            [{ number := n, tick := s.cmu.clock.value, captured := s.localTime }] } := if_pos room

theorem captureMark_of_full {r : Reader} {n : BitVec 8} {s : State} (full : 32 ≤ (s.cmu.marks r).queue.length) :
    captureMark r n s = s.countLost r := if_neg (Nat.not_lt.mpr full)

theorem markPulse_of_not_running {r : Reader} {s : State} (rest : s.cmu.clock.isRunning = false) :
    markPulse r s = (s.withMarks r { s.cmu.marks r with next := (s.cmu.marks r).next + 1 }).countLost r := by
  simp [markPulse, rest]

theorem markPulse_of_fresh {r : Reader} {s : State} (running : s.cmu.clock.isRunning = true)
    (fresh : ∀ x ∈ (s.cmu.marks r).queue, x.number ≠ (s.cmu.marks r).next) :
    markPulse r s =
      captureMark r (s.cmu.marks r).next
        (s.withMarks r { s.cmu.marks r with next := (s.cmu.marks r).next + 1 }) := by
  have noneTaken : ((s.cmu.marks r).queue.any fun x => x.number == (s.cmu.marks r).next) = false := by
    simpa using fresh
  simp [markPulse, running, noneTaken]

theorem markPulse_of_taken {r : Reader} {s : State} (running : s.cmu.clock.isRunning = true)
    (taken : ∃ x ∈ (s.cmu.marks r).queue, x.number = (s.cmu.marks r).next) :
    markPulse r s =
      captureMark r (s.cmu.marks r).next
        ((s.withMarks r
          { queue := dropMark (s.cmu.marks r).next (s.cmu.marks r).queue
            next := (s.cmu.marks r).next + 1 }).countOrphan r) := by
  have oneTaken : ((s.cmu.marks r).queue.any fun x => x.number == (s.cmu.marks r).next) = true := by
    simpa using taken
  simp [markPulse, running, oneTaken]

/-- A queue that held a mark of a number is shorter without it. -/
theorem dropMark_length_lt {n : BitVec 8} {q : List Mark} (h : ∃ x ∈ q, x.number = n) :
    (dropMark n q).length < q.length := by
  obtain ⟨x, hx, hn⟩ := h
  exact List.length_filter_lt_length_iff_exists.mpr ⟨x, hx, by simp [hn]⟩

theorem markPulseResult : Claims.MarkPulseResult := by
  intro r s run m n counts kept mark lost orphaned put
  have pulse : exec (.markPulse r) s = .next (markPulse r s) := event_of_running _ run
  rw [pulse]
  refine ⟨fun rest => ?_, fun running => ⟨fun fresh => ⟨fun room => ?_, fun full => ?_⟩, fun taken bound => ?_⟩⟩
  · rw [markPulse_of_not_running rest]
    rfl
  · rw [markPulse_of_fresh running fresh, captureMark_of_room (by simpa using room)]
    cases r <;> rfl
  · rw [markPulse_of_fresh running fresh, captureMark_of_full (by simpa using full)]
    rfl
  · have room := Nat.lt_of_lt_of_le (dropMark_length_lt taken) bound
    rw [markPulse_of_taken running taken, captureMark_of_room (by simpa using room)]
    cases r <;> rfl

/-! ### Expiries (R30) -/

theorem markExpiryResult : Claims.MarkExpiryResult := by
  intro r n s run m counts
  show execMarkExpiry r n s = _
  rw [execMarkExpiry, event_of_running _ run]
  congr 1
  have due : ((s.cmu.marks r).queue.any fun x => x.number == n && markExpired s.localTime x) = true ↔
      ∃ x ∈ m.queue, x.number = n ∧ x.captured + 10000 ≤ s.localTime := by
    simp [markExpired, m]
  dsimp only
  simp only [due]
  rfl

/-- Settles O23: the four parts. -/
theorem clockAndMarkEvents : Obligations.ClockAndMarkEvents :=
  ⟨clockAdvanceResult, markPulseResult, markExpiryResult, eachReaderHasItsOwn⟩

end Sys2Proof.Machine
end

section
/-! Wave Set and Gun Clear, the triggers a change of a wave's entry gives (section 2.3), and the derivation of a
record (chapter 5). -/

namespace Sys2Proof.Machine

/-! ### The checks of Wave Set and Gun Clear (R34, R35) -/

theorem toFin_of_lt {n v : Nat} (h : v < n) : toFin n v = some ⟨v, h⟩ := dif_pos h

theorem toFin_of_le {n v : Nat} (h : n ≤ v) : toFin n v = none := dif_neg (Nat.not_lt.mpr h)

theorem bibOk_eq_false_iff (bib : Nat) : bibOk bib = false ↔ bib = 0 ∨ 65534 < bib := by
  simp only [bibOk, Config.maxBib, Bool.and_eq_false_iff, decide_eq_false_iff_not]
  omega

/-- The range choice for a defined code, check by check (R34). -/
theorem rangeChoice_eq {code : Nat} (first last : Nat) (defined : code ≤ 1) :
    rangeChoice code first last =
      if code = 0 ∧ (first = 0 ∨ 65534 < first ∨ last = 0 ∨ 65534 < last) then .error .badBib
      else if code = 0 ∧ last < first then .error .badValue
      else .ok (if code = 0 then some (first, last) else none) := by
  have bibs : (!bibOk first || !bibOk last) = true ↔
      first = 0 ∨ 65534 < first ∨ last = 0 ∨ 65534 < last := by
    rw [Bool.or_eq_true, Bool.not_eq_true', Bool.not_eq_true', bibOk_eq_false_iff, bibOk_eq_false_iff, or_assoc]
  obtain rfl | rfl : code = 0 ∨ code = 1 := by omega
  · simp only [rangeChoice, bibs, true_and, if_true]
    rfl
  · rfl

/-- The gun choice for a defined code (R34). -/
theorem gunChoice_eq {code : Nat} (tick : Nat) (old : Option Nat) (defined : code ≤ 2) :
    gunChoice code tick old =
      if code = 0 ∧ 16777215 < tick then .error .badValue
      else .ok (if code = 0 then some tick else if code = 1 then none else old) := by
  obtain rfl | rfl | rfl : code = 0 ∨ code = 1 ∨ code = 2 := by omega
  · simp only [gunChoice, true_and, if_true]
    rfl
  · rfl
  · rfl

theorem waveSetChecksAndStores : Claims.WaveSetChecksAndStores := by
  intro c p s hd l first last refused
  show execWaveSet p s = _
  have refuse {r : Reason} (h : waveSet (byteAt l 0) (byteAt l 1) first last (byteAt l 6) (longAt l 7) s =
      .refused r s) : execWaveSet p s = .next (refused r) := receive_of_refused hd h
  by_cases wave : byteAt l 0 < 8
  · rw [dif_pos wave]
    have set := show waveSet (byteAt l 0) (byteAt l 1) first last (byteAt l 6) (longAt l 7) s = _ by
      rw [waveSet, toFin_of_lt wave]
    dsimp only at set ⊢
    split
    · rename_i codes
      exact refuse (set.trans (if_pos codes))
    · rename_i codes
      rw [if_neg codes, rangeChoice_eq first last (by omega)] at set
      split
      · rename_i bibs
        rw [if_pos bibs] at set
        exact refuse set
      · rename_i bibs
        rw [if_neg bibs] at set
        split
        · rename_i order
          rw [if_pos order] at set
          exact refuse set
        · rename_i order
          rw [if_neg order] at set
          dsimp only at set
          rw [gunChoice_eq _ _ (by omega)] at set
          split
          · rename_i gun
            rw [if_pos gun] at set
            exact refuse set
          · rename_i gun
            rw [if_neg gun] at set
            exact receive_of_done hd set
  · rw [dif_neg wave]
    exact refuse (by rw [waveSet, toFin_of_le (Nat.le_of_not_lt wave)])

theorem gunClearResult : Claims.GunClearResult := by
  intro c p s hd
  show execGunClear p s = _
  split
  · rename_i wave
    exact receive_of_done hd (by rw [gunClear, toFin_of_lt wave]; rfl)
  · rename_i wave
    exact receive_of_refused hd (by rw [gunClear, toFin_of_le (Nat.le_of_not_lt wave)])

/-! ### Triggers (R36, R99) -/

/-- Whether a wave's change from entry `old` to `new` marks a record STALE: by its gun or by its range (R36). -/
def markedByWave (w : Wave) (old new : WaveEntry) (r : Record) : Bool :=
  (old.gun != new.gun && gunNamed w r) || (old.range != new.range && rangeNamed r)

/-- Marking is record by record. -/
theorem markStale_slots (named : Record → Bool) (t : RunnerTable) (i : Slot) :
    (markStale named t).slots[i] =
      t.slots[i].map fun r => if named r then { r with stale := true } else r := by
  simp [markStale]

/-- Marking no record changes nothing. -/
theorem markStale_nothing (t : RunnerTable) : markStale (fun _ => false) t = t := by
  simp [markStale]

/-- Two markings are one, when the second does not read what the first sets. -/
theorem markStale_markStale {first second : Record → Bool} (t : RunnerTable)
    (h : ∀ r, second { r with stale := true } = second r) :
    markStale second (markStale first t) = markStale (fun r => first r || second r) t := by
  simp only [markStale, Vector.map_map, RunnerTable.mk.injEq, and_true]
  refine Vector.map_congr_left fun slot _ => ?_
  cases slot with
  | none => rfl
  | some r => cases hf : first r <;> cases hs : second r <;> simp [hf, hs, h]

/-- A trigger given on a condition. -/
theorem trigger_of_condition (given : Bool) (named : Record → Bool) (s : State) :
    (if given then trigger named s else s) =
      (s.withRt (markStale (fun r => given && named r) s.rt)).withSa
        (if given then { position := some 0 } else s.sa) := by
  cases given with
  | false =>
    simp only [Bool.false_and, markStale_nothing]
    rfl
  | true => simp [trigger]

/-- The state with a wave's entry stored and its triggers given, before the idle band clock is rendered
(R34, R36). -/
def withWave (w : Wave) (entry : WaveEntry) (s : State) : State :=
  let old := s.cmu.waves[w]
  ((s.withCmu { s.cmu with waves := s.cmu.waves.set w entry }).withRt
    (markStale (markedByWave w old entry) s.rt)).withSa
    (if old.gun != entry.gun || old.range != entry.range then { position := some 0 } else s.sa)

/-- Storing an entry gives the triggers of what changed, and has the idle band clock rendered again when the
clock wave's gun is what changed (R34, R36, R135). -/
theorem storeWave_eq (w : Wave) (entry : WaveEntry) (s : State) :
    storeWave w entry s =
      if s.cmu.waves[w].gun != entry.gun && w == s.bi.clockWave then renderIdleClock (withWave w entry s)
      else withWave w entry s := by
  unfold storeWave withWave markedByWave
  dsimp only
  generalize (s.cmu.waves[w].gun != entry.gun) = gun
  generalize (s.cmu.waves[w].range != entry.range) = range
  rw [trigger_of_condition, trigger_of_condition]
  simp only [State.withSa_rt, State.withRt_rt, State.withCmu_rt]
  rw [markStale_markStale _ fun r => rfl]
  cases gun <;> cases range <;> rfl

/-- What the idle band clock shows depends on the feature controller, the board and the clock unit alone. -/
theorem renderIdleClock_bi_congr {s t : State} (hfc : t.fc = s.fc) (hbi : t.bi = s.bi) (hcmu : t.cmu = s.cmu) :
    (renderIdleClock t).bi = (renderIdleClock s).bi := by
  simp only [renderIdleClock, State.writeLines, idleLine0, hfc, hbi, hcmu]
  split
  · rfl
  · exact hbi

theorem storeWave_onlyImage (w : Wave) (entry : WaveEntry) (s : State) :
    OnlyImage (withWave w entry s) (storeWave w entry s) := by
  rw [storeWave_eq]
  split
  · exact renderIdleClock_onlyImage _
  · exact onlyImage_refl _

theorem storeWave_cmu (w : Wave) (entry : WaveEntry) (s : State) :
    (storeWave w entry s).cmu = { s.cmu with waves := s.cmu.waves.set w entry } :=
  (storeWave_onlyImage w entry s).onlyList.cmu

theorem waveChangeGivesTriggers : Claims.WaveChangeGivesTriggers := by
  intro w e s t gun range
  obtain ⟨image, ht⟩ := onlyImage_iff.mp (storeWave_onlyImage w e s)
  have hsa : t.sa = if gun ∨ range then { position := some 0 } else s.sa := by
    rw [show t = _ from ht]
    simp [withWave, gun, range]
  have hrt : t.rt = markStale (markedByWave w s.cmu.waves[w] e) s.rt := by
    rw [show t = _ from ht]
    rfl
  refine ⟨storeWave_cmu w e s, fun h => ?_, fun h => ?_, fun i => ?_, fun hg hw => ?_, fun h => ?_, ?_⟩
  · rw [hsa, if_pos h]
  · rw [hsa, if_neg h]
  · rw [hrt, markStale_slots]
    simp [markedByWave, gunNamed, rangeNamed, gun, range]
  · show (storeWave w e s).bi = _
    rw [storeWave_eq, if_pos (by simp only [bne_iff_ne, Bool.and_eq_true, beq_iff_eq]; exact ⟨hg, hw⟩)]
    exact renderIdleClock_bi_congr rfl rfl (storeWave_cmu w e s).symm
  · show (storeWave w e s).bi = _
    rw [storeWave_eq, if_neg (by simpa [gun, imp_iff_not_or] using h)]
    rfl
  · rw [show t = _ from ht]
    rfl

/-- Settles O24: the checks of both requests, and what a stored entry brings. -/
theorem waveTableRequests : Obligations.WaveTableRequests :=
  ⟨waveSetChecksAndStores, gunClearResult, waveChangeGivesTriggers⟩

/-! ### The derivation of a record (R37, R88, R90, R91) -/

theorem waveContains_iff (w : WaveEntry) (bib : Nat) :
    waveContains w bib = true ↔ ∃ first last, w.range = some (first, last) ∧ first ≤ bib ∧ bib ≤ last := by
  unfold waveContains
  split
  · rename_i first last h
    simp [h]
  · rename_i h
    simp [h]

/-- The first channel, wave or slot that meets a condition is what a search through all finds. -/
theorem find?_finRange_of_first {n : Nat} {p : Fin n → Bool} {i : Fin n} (hi : p i = true)
    (before : ∀ j < i, p j = false) : (List.finRange n).find? p = some i := by
  rw [List.find?_eq_some_iff_getElem]
  exact ⟨hi, i, by simp, by simp, fun j hj => by simpa using before _ (by simpa [Fin.lt_def] using hj)⟩

theorem waveResolution : Claims.WaveResolution := by
  intro waves r holds
  have contains (w : Wave) : waveContains waves[w] r.bib = true ↔ holds w := waveContains_iff _ _
  refine ⟨fun w hw => by simp [resolveWave, hw], fun noFill => ⟨fun w hw first => ?_, fun outside => ?_⟩⟩
  · simp only [resolveWave, noFill]
    exact find?_finRange_of_first ((contains w).mpr hw) fun v hv => by
      simpa using mt (contains v).mp (first v hv)
  · simp only [resolveWave, noFill]
    exact List.find?_eq_none.mpr fun w _ => mt (contains w).mp (outside w)

/-- Pass 1 is a candidate for pass 2 when D1 is set and its race time is present (R90). -/
theorem pass1Candidate_of_some {d1 t1 : Nat} {d : Derived} (time : d.raceTime = some t1) (set : d1 ≠ 0) :
    pass1Candidate d1 d = [(d1, t1)] := by
  simp [pass1Candidate, time, set]

theorem pass1Candidate_of_none {d1 : Nat} {d : Derived} (h : d.raceTime = none ∨ d1 = 0) :
    pass1Candidate d1 d = [] := by
  unfold pass1Candidate
  split <;> simp_all

theorem derive_derived1_of_some (waves : Vector WaveEntry 8) (point : PointSettings) {r : Record} {a : Pass}
    (h : r.pass1 = some a) :
    (derive waves point r).derived1 =
      derivePass waves (resolveWave waves r) point.courseLength point.d1 a.tick
        (r.upstream.toList ++ [(0, 0)]) := by
  simp [derive, upstreamCandidate, h]

theorem derive_derived2_of_some (waves : Vector WaveEntry 8) (point : PointSettings) {r : Record} {b : Pass}
    (h : r.pass2 = some b) :
    (derive waves point r).derived2 =
      derivePass waves (resolveWave waves r) point.courseLength point.d2 b.tick
        (pass1Candidate point.d1 (derive waves point r).derived1 ++ r.upstream.toList ++ [(0, 0)]) := by
  simp [derive, upstreamCandidate, h]

theorem derivationOfARecord : Claims.DerivationOfARecord := by
  intro waves point r q w up
  refine ⟨derive_eq waves point r, fun h => by simp [q, derive, h], fun h => by simp [q, derive, h],
    fun a h => derive_derived1_of_some waves point h, fun b h => ?_⟩
  have second := derive_derived2_of_some waves point h
  refine ⟨fun t1 time set => ?_, fun absent => ?_⟩
  · rwa [pass1Candidate_of_some time set] at second
  · rwa [pass1Candidate_of_none absent] at second

/-- Settles O39: the two parts. -/
theorem derivationOfRecords : Obligations.DerivationOfRecords := ⟨derivationOfARecord, waveResolution⟩

end Sys2Proof.Machine
end

section
/-! Channel Reset and Race Clear: what each empties and what it keeps (R22, R33, R172, R173). -/

namespace Sys2Proof.Machine

/-! ### Channel Reset (R22, R33, R173) -/

theorem resetMarks_eq (c : Channel) (x : CmuState) :
    resetMarks c x =
      { x with
        marksA := if c = 0 then { queue := [], next := 0#8 } else x.marksA
        marksB := if c = 1 then { queue := [], next := 0#8 } else x.marksB } := by
  fin_cases c <;> rfl

theorem clearCounts_eq (c : Channel) (a : AttentionState) :
    clearCounts c a =
      { a with
        countsA := if c = 0 then { lost := 0, orphan := 0 } else a.countsA
        countsB := if c = 1 then { lost := 0, orphan := 0 } else a.countsB } := by
  fin_cases c <;> rfl

/-- Channel Reset, block by block. -/
theorem channelReset_eq (c : Channel) (s : State) :
    channelReset c s =
      ((s.withLc (endHold s.localTime c
        { s.lc with
          replies := s.lc.replies.set c [], errors := s.lc.errors.set c ErrorRecord.empty })).withCmu
          (resetMarks c s.cmu)).withAtt
        (clearCounts c { s.att with masks := s.att.masks.set c 0x3F#6 }) := rfl

theorem channelResetResult : Claims.ChannelResetResult := by
  intro c p s hd none_ zero l
  have ran : execChannelReset p s = .next (channelReset c s) := receive_of_done hd rfl
  refine ⟨channelReset c s, ran, ?_, fun from_ hg hold => endHold_of_hold hg hold, fun hnot => endHold_of_not hnot⟩
  rw [channelReset_eq, resetMarks_eq, clearCounts_eq]
  rfl

/-! ### Race Clear (R172) -/

/-- A cleared list's lines are all blank (R139, R154). -/
theorem listRows_raceCleared (l : ListState) :
    listRows l.raceCleared = List.replicate l.buffers.length blankLine := by
  have blank (i : Nat) : bufferCells (l.raceCleared.bufferAt i) = blankLine := by
    have empty (j : Nat) : l.raceCleared.buffers.getD j none = none := by
      rw [List.getD_eq_getElem?_getD, ListState.raceCleared, List.getElem?_replicate]
      split <;> rfl
    rw [ListState.bufferAt, empty]
    rfl
  have size : l.raceCleared.size = l.buffers.length := List.length_replicate
  rw [listRows, size]
  simp only [blank, List.map_const', List.length_range]

/-- The band and the list written over an image of as many lines replace it. -/
theorem writeRows_band_list {band list image : List (List Cell)}
    (h : image.length = band.length + list.length) :
    writeRows band.length list (writeRows 0 band image) = band ++ list := by
  simp [writeRows, h]

/-- The image after Race Clear: the idle band, then blank list lines (R138, R154). -/
theorem raceClear_image {s : State} (h : BoardSound s) :
    (raceClear s).bi.image = bandRows (raceClear s) ++ List.replicate s.ls.buffers.length blankLine := by
  obtain ⟨-, -, below, buffers, -, image, -⟩ := h
  have rows := listRows_raceCleared s.ls
  have band : (bandRows (raceClear s)).length = s.bi.bandHeight := bandRows_length _
  rw [← rows, ← writeRows_band_list (image := s.bi.image), band]
  · rfl
  · rw [band, rows, List.length_replicate]
    omega

theorem raceClearResult : Claims.RaceClearResult := by
  intro c p s hd
  have ran : execRaceClear p s = .next (raceClear s) := receive_of_done hd rfl
  have table : (raceClear s).rt = RunnerTable.empty := rfl
  refine ⟨raceClear s, ran, ⟨rfl, rfl, rfl, rfl⟩, ⟨rfl, rfl, rfl, fun w => ?guns⟩,
    ⟨emptyTable_slots, ?order, rfl, rfl⟩, rfl, rfl, ⟨fun k => ?queues, fun m => ?messages, rfl, rfl, rfl, rfl,
      rfl, rfl, rfl, rfl, rfl, rfl⟩, rfl, ⟨rfl, fun h => raceClear_image h⟩, rfl⟩
  case order => simp only [table, RunnerTable.empty]
  case guns => exact Vector.getElem_map ..
  case queues => exact Vector.getElem_replicate ..
  case messages => exact Vector.getElem_replicate ..

/-- Settles O58: the two requests. -/
theorem resetRequests : Obligations.ResetRequests := ⟨channelResetResult, raceClearResult⟩

end Sys2Proof.Machine
end

section
/-! What a command can do to the clock and mark unit, said once: a relation with one case for each thing that can
happen to it, and the inversion of `exec` into that relation (chapter 2). That the clock and the marks stay sound
at every step follows from it. -/

namespace Sys2Proof.Machine

/-! ### Commands of the link change the link alone (chapter 1) -/

theorem onlyLink_refl (s : State) : OnlyLink s s := rfl

theorem OnlyLink.cmu {s t : State} (h : OnlyLink s t) : t.cmu = s.cmu := by
  rw [h]
  rfl

theorem Recorded.onlyLink {s t : State} (h : Recorded s t) : OnlyLink s t := by
  obtain ⟨_, _, -, rfl⟩ := h
  rfl

/-- A further change of the link alone. -/
theorem OnlyLink.withLc {s t : State} (h : OnlyLink s t) (l : LinkState) : OnlyLink s (t.withLc l) := by
  rw [h]
  rfl

theorem event_onlyLink {s t : State} {f : State → State} (h : event s f = .next t)
    (hf : OnlyLink s (f s)) : OnlyLink s t := by
  rcases event_cases h with ⟨-, rfl⟩ | ⟨-, rfl⟩
  · exact onlyLink_refl t
  · exact hf

theorem execOpenPattern_onlyLink {s t : State} (h : execOpenPattern s = .next t) : OnlyLink s t := by
  unfold execOpenPattern at h
  repeat' split at h
  all_goals
    cases h
    rfl

theorem execNormalClose_onlyLink {tail : List Byte} {s t : State} (h : execNormalClose tail s = .next t) :
    OnlyLink s t := by
  refine event_onlyLink h ?_
  split
  · dsimp only
    split
    · rfl
    · exact ((closeErrors_recorded tail _ s).onlyLink.withLc _).withLc _
  all_goals rfl

theorem execCut_onlyLink {tail : List Byte} {s t : State} (h : execCut tail s = .next t) : OnlyLink s t := by
  refine event_onlyLink h ?_
  split
  · dsimp only
    split
    · rfl
    · exact (((tailHeader_recorded tail _ s).onlyLink.withLc _).withLc _).withLc _
  all_goals rfl

theorem execTurnClose_onlyLink {tail : List Byte} {s t : State} (h : execTurnClose tail s = .next t) :
    OnlyLink s t := by
  refine event_onlyLink h ?_
  split
  · dsimp only
    split
    · rfl
    · exact (closeErrors_recorded tail _ s).onlyLink.withLc _
  all_goals rfl

theorem execReplyBurstEnd_onlyLink {s t : State} (h : execReplyBurstEnd s = .next t) : OnlyLink s t := by
  refine event_onlyLink h ?_
  split <;> rfl

theorem execHeaderBad_onlyLink {header : Header} {s t : State} (h : execHeaderBad header s = .next t) :
    OnlyLink s t := by
  unfold execHeaderBad at h
  repeat' split at h
  all_goals
    cases h
    rfl

theorem execUnknownKind_onlyLink {kind : Byte} {p : Packet} {s t : State}
    (h : execUnknownKind kind p s = .next t) : OnlyLink s t := by
  unfold execUnknownKind at h
  repeat' split at h
  all_goals cases h
  · rfl
  · exact (packetErrorEffect_recorded _ kind _ s).onlyLink
  · rfl
  · rfl

theorem execRequestRaised_onlyLink {c : Channel} {s t : State} (h : execRequestRaised c s = .next t) :
    OnlyLink s t := by
  unfold execRequestRaised at h
  split at h
  · cases h
    rfl
  · rcases event_cases h with ⟨-, rfl⟩ | ⟨-, rfl⟩ <;> rfl

theorem execRequestDropped_onlyLink {c : Channel} {s t : State} (h : execRequestDropped c s = .next t) :
    OnlyLink s t := by
  unfold execRequestDropped at h
  split at h
  · rcases event_cases h with ⟨-, rfl⟩ | ⟨-, rfl⟩ <;> rfl
  · cases h
    rfl

theorem execBusyRelease_onlyLink {s t : State} (h : execBusyRelease s = .next t) : OnlyLink s t := by
  unfold execBusyRelease at h
  split at h
  · cases h
    rfl
  · rcases event_cases h with ⟨-, rfl⟩ | ⟨-, rfl⟩ <;> rfl

theorem execOfferTimerExpiry_onlyLink {s t : State} (h : execOfferTimerExpiry s = .next t) :
    OnlyLink s t := by
  refine event_onlyLink h ?_
  split
  · split <;> rfl
  all_goals rfl

theorem execTenureReached_onlyLink {s t : State} (h : execTenureReached s = .next t) : OnlyLink s t :=
  event_onlyLink h rfl

theorem execWithdrawalGraceEnd_onlyLink {s t : State} (h : execWithdrawalGraceEnd s = .next t) :
    OnlyLink s t := by
  refine event_onlyLink h ?_
  dsimp only
  split
  · split <;> rfl
  all_goals rfl

theorem execHoldLimit_onlyLink {s t : State} (h : execHoldLimit s = .next t) : OnlyLink s t := by
  refine event_onlyLink h ?_
  dsimp only
  split <;> rfl

/-! ### Operations of the other blocks leave the clock and mark unit -/

@[simp] theorem renderIdleClock_cmu (s : State) : (renderIdleClock s).cmu = s.cmu :=
  (renderIdleClock_onlyImage s).onlyList.cmu
@[simp] theorem clockValueChanged_cmu (s : State) : (clockValueChanged s).cmu = s.cmu :=
  (clockValueChanged_onlyList s).cmu
@[simp] theorem headTest_cmu (s : State) : (headTest s).cmu = s.cmu := (headTest_onlyList s).cmu
@[simp] theorem expireLines_cmu (n : Nat) (s : State) : (expireLines n s).cmu = s.cmu :=
  (expireLines_onlyList n s).cmu
@[simp] theorem emptyBuffer_cmu (j : Nat) (s : State) : (emptyBuffer j s).cmu = s.cmu := rfl
@[simp] theorem arrive_cmu (slot : Slot) (bib : Nat) (pass : PassNo) (tick : Nat) (s : State) :
    (arrive slot bib pass tick s).cmu = s.cmu := (arrive_onlyList slot bib pass tick s).cmu
@[simp] theorem rerender_cmu (i : Slot) (s : State) : (rerender i s).cmu = s.cmu :=
  (rerender_onlyCells i s).onlyList.cmu
@[simp] theorem renderBand_cmu (s : State) : (renderBand s).cmu = s.cmu := rfl
@[simp] theorem selectFeature_cmu (s : State) : (selectFeature s).cmu = s.cmu := (selectFeature_onlyBand s).cmu
@[simp] theorem selectOrTest_cmu (s : State) : (selectOrTest s).cmu = s.cmu := (selectOrTest_onlyBand s).cmu
@[simp] theorem endShown_cmu (deleted : Bool) (s : State) : (endShown deleted s).cmu = s.cmu :=
  (endShown_onlyBand deleted s).cmu
@[simp] theorem endAndSelect_cmu (deleted : Bool) (s : State) : (endAndSelect deleted s).cmu = s.cmu :=
  (endAndSelect_onlyBand deleted s).cmu
@[simp] theorem removeSuspended_cmu (deleted : Bool) (gone : Feature → Bool) (s : State) :
    (removeSuspended deleted gone s).cmu = s.cmu := (removeSuspended_onlyBand deleted gone s).cmu
@[simp] theorem requestFeature_cmu (k : Level) (e : FeatureEntry) (s : State) :
    (requestFeature k e s).cmu = s.cmu := (requestFeature_onlyBand k e s).cmu
@[simp] theorem postChecked_cmu (m : Fin 8) (k : Level) (duration : Nat) (lines : List (List Byte))
    (s : State) : (postChecked m k duration lines s).cmu = s.cmu := (postChecked_onlyBand m k duration lines s).cmu
@[simp] theorem deleteStored_cmu (m : Fin 8) (s : State) : (deleteStored m s).cmu = s.cmu :=
  (deleteStored_onlyBand m s).cmu
@[simp] theorem maskLevels_cmu (old new : BitVec 8) (s : State) : (maskLevels old new s).cmu = s.cmu :=
  (maskLevels_onlyBand old new s).cmu

@[simp] theorem layoutList_cmu (s : State) : (layoutList s).cmu = s.cmu := headTest_cmu _

@[simp] theorem layoutBand_cmu (oldB : Nat) (oldWave : Wave) (s : State) :
    (layoutBand oldB oldWave s).cmu = s.cmu := by
  unfold layoutBand
  repeat' split
  all_goals simp

@[simp] theorem layoutChecked_cmu (n b : Nat) (w : Wave) (s : State) :
    (layoutChecked n b w s).cmu = s.cmu := by
  unfold layoutChecked
  dsimp only
  split <;> simp

@[simp] theorem deriveSlot_cmu (s : State) (i : Slot) : (s.deriveSlot i).cmu = s.cmu := by
  unfold State.deriveSlot
  split <;> rfl

@[simp] theorem visitSlot_cmu (i : Slot) (s : State) : (visitSlot i s).cmu = s.cmu := by
  unfold visitSlot
  repeat' split
  all_goals simp

@[simp] theorem fillSlot_cmu (i : Slot) (bib : Nat) (f : FillFields) (s : State) :
    (fillSlot i bib f s).cmu = s.cmu := by
  unfold fillSlot
  split <;> simp

@[simp] theorem correctSlot_cmu (i : Slot) (pass : PassNo) (tick : Option Nat) (s : State) :
    (correctSlot i pass tick s).cmu = s.cmu := by
  unfold correctSlot
  split <;> simp

theorem crossingSlot_cmu {bib : Nat} {i : Slot} {s t : State} (h : crossingSlot bib s = some (i, t)) :
    t.cmu = s.cmu := by
  unfold crossingSlot at h
  split at h
  · cases h
    rfl
  · unfold allocateForCrossing at h
    split at h
    · cases h
    · split at h
      all_goals
        cases h
        rfl

@[simp] theorem logCrossing_cmu (cls : Class) (reader : Reader) (timed : Bool) (x : Nat) (r : Record)
    (s : State) : (logCrossing cls reader timed x r s).cmu = s.cmu := by
  cases cls <;> rfl

@[simp] theorem routePass_cmu (i : Slot) (pass : PassNo) (x : Nat) (r : Record) (s : State) :
    (routePass i pass x r s).cmu = s.cmu := by
  unfold routePass
  dsimp only
  repeat' split
  all_goals simp

@[simp] theorem routeCrossing_cmu (i : Slot) (cls : Class) (x : Nat) (r : Record) (s : State) :
    (routeCrossing i cls x r s).cmu = s.cmu := by
  cases cls <;> simp [routeCrossing]

@[simp] theorem crossingRecency_cmu (i : Slot) (cls : Class) (s : State) :
    (crossingRecency i cls s).cmu = s.cmu := by
  unfold crossingRecency
  split <;> rfl

@[simp] theorem crossSlot_cmu (i : Slot) (reader : Reader) (timed : Bool) (x : Nat) (s : State) :
    (crossSlot i reader timed x s).cmu = s.cmu := by
  unfold crossSlot
  split <;> simp

/-! ### Answers -/

/-- A property of every state an owner block answers with, done or refused. -/
def Answer.All (P : State → Prop) : Answer → Prop
  | .done t => P t
  | .refused _ t => P t
  | .stop _ => True

@[simp] theorem all_done {P : State → Prop} {t : State} : (Answer.done t).All P ↔ P t := Iff.rfl
@[simp] theorem all_refused {P : State → Prop} {r : Reason} {t : State} : (Answer.refused r t).All P ↔ P t :=
  Iff.rfl
@[simp] theorem all_stop {P : State → Prop} {f : Fault} : (Answer.stop f).All P := trivial

theorem Answer.All.imp {P Q : State → Prop} {a : Answer} (h : a.All P) (himp : ∀ t, P t → Q t) : a.All Q := by
  cases a with
  | done t => exact himp t h
  | refused r t => exact himp t h
  | stop f => trivial

/-- A property that the link has no part in, of the state before and of what the owner block answers, is one of
the state after a packet. -/
theorem receive_all {P : State → Prop} {k : Kind} {p : Packet} {owner : Channel → State → Answer} {s t : State}
    (h : receive k p owner s = .next t) (hs : P s) (link : ∀ u l, P u → P (u.withLc l))
    (ho : ∀ c, (owner c s).All P) : P t := by
  rcases receive_cases h with ⟨-, rfl⟩ | ⟨c, e, -, -, rfl⟩ | ⟨c, r, -, -, -, rfl⟩ | ⟨c, -, ha⟩
  · exact hs
  · rw [packetErrorEffect_onlyLink]
    exact link _ _ hs
  · exact link _ _ hs
  · have answered := ho c
    rcases ha with ha | ⟨r, u, ha, rfl⟩
    · rwa [ha] at answered
    · rw [ha] at answered
      exact link _ _ answered

/-! ### The moves of the clock and mark unit -/

/-- Everything a command other than the two resets can make of the clock and mark unit of `s`. -/
inductive ClockMove (s : State) : CmuState → Prop
  /-- Nothing of the unit moves. -/
  | stays : ClockMove s s.cmu
  /-- The clock is set to a tick in range (R24). -/
  | set (tick : Nat) (range : tick ≤ 16777215) :
    ClockMove s { s.cmu with clock := clockLoaded s.localTime tick }
  /-- The clock is stopped and keeps its value (R25). -/
  | stopped : ClockMove s { s.cmu with clock := { s.cmu.clock with state := .stopped } }
  /-- The clock is trimmed (R26). -/
  | trimmed (start : Nat) (amount : Int) :
    ClockMove s { s.cmu with clock := clockTrimmed start s.cmu.clock.value amount }
  /-- The clock advances by a tick (R23). -/
  | advanced (start : Nat) : ClockMove s { s.cmu with clock := clockAdvanced start s.cmu.clock.value }
  /-- A pulse comes on a reader's mark line (R29). -/
  | pulsed (r : Reader) : ClockMove s (markPulse r s).cmu
  /-- Marks of one number leave a reader's queue, claimed or expired (R30, R31). -/
  | marksLeft (r : Reader) (n : BitVec 8) :
    ClockMove s
      (s.cmu.withMarks r { s.cmu.marks r with queue := dropMark n (s.cmu.marks r).queue })
  /-- A channel's marks are reset, if it is a reader's (R33). -/
  | marksReset (c : Channel) : ClockMove s (resetMarks c s.cmu)
  /-- Waves are stored (R34, R35). -/
  | wavesStored (waves : Vector WaveEntry 8) : ClockMove s { s.cmu with waves }
  /-- The race is cleared (R40). -/
  | raceCleared : ClockMove s s.cmu.raceCleared

/-- `t` follows from `s` by a move of the clock and mark unit. -/
def MovesClock (s t : State) : Prop := ClockMove s t.cmu

theorem movesClock_of_cmu {s t : State} (h : t.cmu = s.cmu) : MovesClock s t := by
  unfold MovesClock
  rw [h]
  exact .stays

/-- What a packet makes of the unit is what its owner block makes of it. -/
theorem receive_movesClock {k : Kind} {p : Packet} {owner : Channel → State → Answer} {s t : State}
    (h : receive k p owner s = .next t) (ho : ∀ c, (owner c s).All (MovesClock s)) : MovesClock s t :=
  receive_all h .stays (fun _ _ move => move) ho

/-- An owner block that leaves the unit alone. -/
theorem receive_keepsClock {k : Kind} {p : Packet} {owner : Channel → State → Answer} {s t : State}
    (h : receive k p owner s = .next t) (ho : ∀ c, (owner c s).All fun u => u.cmu = s.cmu) : MovesClock s t :=
  receive_movesClock h fun c => (ho c).imp fun _ => movesClock_of_cmu

theorem event_movesClock {s t : State} {f : State → State} (h : event s f = .next t)
    (hf : MovesClock s (f s)) : MovesClock s t := by
  rcases event_cases h with ⟨-, rfl⟩ | ⟨-, rfl⟩
  · exact .stays
  · exact hf

/-! ### Owner blocks that move the unit -/

theorem clockSet_movesClock (tick : Nat) (s : State) : (clockSet tick s).All (MovesClock s) := by
  unfold clockSet
  split
  · exact .stays
  · rename_i range
    split
    · exact .stays
    · show ClockMove s _
      rw [clockValueChanged_cmu]
      exact .set tick (Nat.le_of_not_lt range)

theorem clockStop_movesClock (s : State) : MovesClock s (clockStop s) := by
  unfold MovesClock clockStop
  split
  · exact .stays
  all_goals
    rw [renderIdleClock_cmu]
    exact .stopped

theorem clockTrim_movesClock (amount : Int) (s : State) : (clockTrim amount s).All (MovesClock s) := by
  unfold clockTrim
  split
  · rename_i start _
    dsimp only
    split
    · exact .stays
    · show ClockMove s _
      rw [clockValueChanged_cmu]
      exact .trimmed start amount
  all_goals exact .stays

theorem storeWave_movesClock (w : Wave) (entry : WaveEntry) (s : State) : MovesClock s (storeWave w entry s) := by
  unfold MovesClock
  rw [storeWave_cmu]
  exact .wavesStored _

theorem waveSet_movesClock (wave rangeCode first last gunCode tick : Nat) (s : State) :
    (waveSet wave rangeCode first last gunCode tick s).All (MovesClock s) := by
  unfold waveSet
  repeat' split
  · exact .stays
  · exact .stays
  · exact .stays
  · exact .stays
  · exact storeWave_movesClock _ _ s

theorem gunClear_movesClock (wave : Nat) (s : State) : (gunClear wave s).All (MovesClock s) := by
  unfold gunClear
  split
  · exact .stays
  · exact storeWave_movesClock _ _ s

theorem crossing_keepsClock (reader : Reader) (timed : Bool) (bib x : Nat) (s : State) :
    (crossing reader timed bib x s).All fun u => u.cmu = s.cmu := by
  unfold crossing
  split
  · split
    · rename_i i t h
      exact (crossSlot_cmu i reader timed x t).trans (crossingSlot_cmu h)
    · trivial
  · rfl

/-- A claimed mark leaves its queue, whatever becomes of the crossing (R31, R45). -/
theorem crossingReport_movesClock (c : Channel) (bib number : Nat) (s : State) :
    (match readerOf c with
      | some r => crossingReport r bib number s
      | none => Answer.refused .notPermitted s).All (MovesClock s) := by
  split
  · rename_i r _
    unfold crossingReport
    split
    · exact .stays
    · rename_i m _
      refine (crossing_keepsClock r false bib m.tick _).imp fun u hu => ?_
      unfold MovesClock
      rw [hu]
      exact .marksLeft r m.number
  · exact .stays

theorem timedCrossingReport_keepsClock (c : Channel) (bib x : Nat) (s : State) :
    (match readerOf c with
      | some r => timedCrossingReport r bib x s
      | none => Answer.refused .notPermitted s).All fun u => u.cmu = s.cmu := by
  split
  · unfold timedCrossingReport
    repeat' split
    · rfl
    · rfl
    · exact crossing_keepsClock _ true bib x s
  · rfl

theorem raceClear_movesClock (s : State) : MovesClock s (raceClear s) := by
  have cleared : (raceClear s).cmu = s.cmu.raceCleared := rfl
  unfold MovesClock
  rw [cleared]
  exact .raceCleared

/-! ### Owner blocks that leave the unit alone -/

theorem pointSetup_keepsClock (l d1 d2 g w : Nat) (s : State) :
    (pointSetup l d1 d2 g w s).All fun u => u.cmu = s.cmu := by
  unfold pointSetup
  repeat' split
  all_goals rfl

theorem rosterFill_keepsClock (bib : Nat) (flag : Bool) (nameLength wave distance time : Nat)
    (name : List Byte) (s : State) :
    (rosterFill bib flag nameLength wave distance time name s).All fun u => u.cmu = s.cmu := by
  unfold rosterFill preload staleFill
  repeat' split
  all_goals simp

theorem pinBib_keepsClock (bib level : Nat) (s : State) :
    (pinBib bib level s).All fun u => u.cmu = s.cmu := by
  unfold pinBib pinAbsent
  repeat' split
  all_goals simp

theorem withBib_all {P : State → Prop} {bib : Nat} {s : State} {act : Slot → Answer} (hs : P s)
    (h : ∀ i, (act i).All P) : (withBib bib s act).All P := by
  unfold withBib
  repeat' split
  · exact hs
  · exact h _
  · exact hs

theorem readSlot_keepsClock (c : Channel) (i : Slot) (s : State) :
    (readSlot c i s).All fun u => u.cmu = s.cmu := by
  unfold readSlot
  split <;> rfl

theorem correctPass_keepsClock (bib code : Nat) (tick : Option Nat) (s : State) :
    (correctPass bib code tick s).All fun u => u.cmu = s.cmu := by
  unfold correctPass
  repeat' split
  · rfl
  · rfl
  · exact withBib_all rfl fun i => by simp
  · rfl

theorem releaseEntries_keepsClock (n : Half) (s : State) :
    (releaseEntries n s).All fun u => u.cmu = s.cmu := by
  unfold releaseEntries
  split <;> rfl

theorem postMessage_keepsClock (message level duration lineCount : Nat) (text : List Byte) (s : State) :
    (postMessage message level duration lineCount text s).All fun u => u.cmu = s.cmu := by
  unfold postMessage
  repeat' split
  all_goals simp

theorem deleteMessage_keepsClock (message : Nat) (s : State) :
    (deleteMessage message s).All fun u => u.cmu = s.cmu := by
  unfold deleteMessage
  split <;> simp

theorem endFeature_keepsClock (code : Nat) (s : State) : (endFeature code s).All fun u => u.cmu = s.cmu := by
  unfold endFeature endLevel
  repeat' split
  all_goals simp

theorem featureSetup_keepsClock (modeCode : Nat) (mask : BitVec 8) (leaderCode dwell : Nat) (s : State) :
    (featureSetup modeCode mask leaderCode dwell s).All fun u => u.cmu = s.cmu := by
  unfold featureSetup
  dsimp only
  repeat' split
  all_goals simp

theorem listTiming_cmu (minDwell lineExpiry leadDelay ageLimit : Nat) (s : State) :
    (listTiming minDwell lineExpiry leadDelay ageLimit s).cmu = s.cmu := by
  simp [listTiming]

theorem boardLayout_keepsClock (n b wave : Nat) (s : State) :
    (boardLayout n b wave s).All fun u => u.cmu = s.cmu := by
  unfold boardLayout
  repeat' split
  all_goals simp

theorem displayMode_keepsClock (code : Nat) (s : State) :
    (displayMode code s).All fun u => u.cmu = s.cmu := by
  unfold displayMode
  split <;> rfl

theorem dutyTable_keepsClock (entries : Vector Byte 16) (s : State) :
    (dutyTable entries s).All fun u => u.cmu = s.cmu := by
  unfold dutyTable
  split <;> rfl

theorem panelWindow_keepsClock (number : Nat) (w : Option Window) (s : State) :
    (panelWindow number w s).All fun u => u.cmu = s.cmu := by
  unfold panelWindow
  repeat' split
  all_goals rfl

theorem readLines_keepsClock (first count : Nat) (c : Channel) (s : State) :
    (readLines first count c s).All fun u => u.cmu = s.cmu := by
  unfold readLines
  split <;> rfl

theorem arbitrationSetup_keepsClock (modeCode parkCode : Nat) (s : State) :
    (arbitrationSetup modeCode parkCode s).All fun u => u.cmu = s.cmu := by
  unfold arbitrationSetup
  split <;> rfl

theorem putHold_cmu (c : Channel) (s : State) : (putHold c s).cmu = s.cmu := by
  unfold putHold
  split <;> rfl

/-! ### Every command -/

/-- Every command but the two resets moves the clock and mark unit by one of the moves above. -/
theorem exec_movesClock {i : Instr} {s t : State} (h : exec i s = .next t) (hp : i ≠ .powerOn)
    (hr : i ≠ .resetAsserted) : MovesClock s t := by
  unfold exec at h
  cases i with
  | powerOn => exact absurd rfl hp
  | resetAsserted => exact absurd rfl hr
  | openPattern => exact movesClock_of_cmu (execOpenPattern_onlyLink h).cmu
  | normalClose tail => exact movesClock_of_cmu (execNormalClose_onlyLink h).cmu
  | turnClose tail => exact movesClock_of_cmu (execTurnClose_onlyLink h).cmu
  | replyBurstEnd => exact movesClock_of_cmu (execReplyBurstEnd_onlyLink h).cmu
  | cut tail => exact movesClock_of_cmu (execCut_onlyLink h).cmu
  | headerBad header => exact movesClock_of_cmu (execHeaderBad_onlyLink h).cmu
  | unknownKind kind p => exact movesClock_of_cmu (execUnknownKind_onlyLink h).cmu
  | requestRaised c => exact movesClock_of_cmu (execRequestRaised_onlyLink h).cmu
  | requestDropped c => exact movesClock_of_cmu (execRequestDropped_onlyLink h).cmu
  | busyRelease => exact movesClock_of_cmu (execBusyRelease_onlyLink h).cmu
  | offerTimerExpiry => exact movesClock_of_cmu (execOfferTimerExpiry_onlyLink h).cmu
  | tenureReached => exact movesClock_of_cmu (execTenureReached_onlyLink h).cmu
  | withdrawalGraceEnd => exact movesClock_of_cmu (execWithdrawalGraceEnd_onlyLink h).cmu
  | holdLimit => exact movesClock_of_cmu (execHoldLimit_onlyLink h).cmu
  | crossingReport p => exact receive_movesClock h (fun c => crossingReport_movesClock c _ _ s)
  | timedCrossingReport p => exact receive_keepsClock h (fun c => timedCrossingReport_keepsClock c _ _ s)
  | clockSet p => exact receive_movesClock h (fun _ => clockSet_movesClock _ s)
  | clockStop p => exact receive_movesClock h (fun _ => clockStop_movesClock s)
  | clockTrim p => exact receive_movesClock h (fun _ => clockTrim_movesClock _ s)
  | clockAdvance =>
    refine event_movesClock h ?_
    unfold MovesClock
    split
    · split
      · rw [clockValueChanged_cmu]
        exact .advanced _
      · exact .stays
    all_goals exact .stays
  | markPulse r => exact event_movesClock h (.pulsed r)
  | markExpiry r n =>
    refine event_movesClock h ?_
    dsimp only
    split
    · exact .marksLeft r n
    · exact .stays
  | waveSet p => exact receive_movesClock h (fun _ => waveSet_movesClock _ _ _ _ _ _ s)
  | gunClear p => exact receive_movesClock h (fun _ => gunClear_movesClock _ s)
  | passVisit =>
    refine event_movesClock h (movesClock_of_cmu ?_)
    split <;> simp
  | pointSetup p => exact receive_keepsClock h (fun _ => pointSetup_keepsClock _ _ _ _ _ s)
  | rosterFill p => exact receive_keepsClock h (fun _ => rosterFill_keepsClock _ _ _ _ _ _ _ s)
  | fetchFills p => exact receive_keepsClock h (fun _ => rfl)
  | fillTimeout => exact event_movesClock h .stays
  | pin p => exact receive_keepsClock h (fun _ => pinBib_keepsClock _ _ s)
  | unpin p => exact receive_keepsClock h (fun _ => withBib_all rfl fun _ => rfl)
  | readRecord p => exact receive_keepsClock h (fun c => withBib_all rfl fun i => readSlot_keepsClock c i s)
  | correctPass p => exact receive_keepsClock h (fun _ => correctPass_keepsClock _ _ _ s)
  | tableFlush p => exact receive_keepsClock h (fun _ => State.withRt_cmu s _)
  | collect p => exact receive_keepsClock h (fun _ => rfl)
  | release p => exact receive_keepsClock h (fun _ => releaseEntries_keepsClock _ s)
  | postMessage p => exact receive_keepsClock h (fun _ => postMessage_keepsClock _ _ _ _ _ s)
  | deleteMessage p => exact receive_keepsClock h (fun _ => deleteMessage_keepsClock _ s)
  | endFeature p => exact receive_keepsClock h (fun _ => endFeature_keepsClock _ s)
  | featureSetup p => exact receive_keepsClock h (fun _ => featureSetup_keepsClock _ _ _ _ s)
  | dwellExpiry =>
    refine event_movesClock h (movesClock_of_cmu ?_)
    split <;> simp
  | minDwellReached =>
    refine event_movesClock h (movesClock_of_cmu ?_)
    split <;> simp
  | lineExpiry j =>
    refine event_movesClock h (movesClock_of_cmu ?_)
    dsimp only
    repeat' split
    all_goals simp
  | listTiming p => exact receive_keepsClock h (fun _ => listTiming_cmu _ _ _ _ s)
  | raceClear p => exact receive_movesClock h (fun _ => raceClear_movesClock s)
  | boardLayout p => exact receive_keepsClock h (fun _ => boardLayout_keepsClock _ _ _ s)
  | displayMode p => exact receive_keepsClock h (fun _ => displayMode_keepsClock _ s)
  | brightness p => exact receive_keepsClock h (fun _ => rfl)
  | dutyTable p => exact receive_keepsClock h (fun _ => dutyTable_keepsClock _ s)
  | panelWindow p => exact receive_keepsClock h (fun _ => panelWindow_keepsClock _ _ s)
  | scanPeriod p => exact receive_keepsClock h (fun _ => rfl)
  | scanStart =>
    refine event_movesClock h (movesClock_of_cmu ?_)
    split <;> rfl
  | frameSent =>
    refine event_movesClock h (movesClock_of_cmu ?_)
    split <;> rfl
  | readLines p => exact receive_keepsClock h (fun c => readLines_keepsClock _ _ c s)
  | arbitrationSetup p => exact receive_keepsClock h (fun _ => arbitrationSetup_keepsClock _ _ s)
  | status p => exact receive_keepsClock h (fun _ => rfl)
  | attentionMask p => exact receive_keepsClock h (fun _ => rfl)
  | channelReset p => exact receive_movesClock h (fun c => .marksReset c)
  | hold p => exact receive_keepsClock h (fun c => putHold_cmu c s)
  | releaseHold p => exact receive_keepsClock h (fun _ => rfl)

/-! ### Sound marks (R28) -/

/-- What is left of a sound queue is sound, whatever the next number. -/
theorem marksSound_of_sublist {now : Nat} {m m' : ReaderMarks} (hsub : m'.queue.Sublist m.queue)
    (h : MarksSound now m) : MarksSound now m' := by
  obtain ⟨length, numbers, order, bounds⟩ := h
  exact ⟨hsub.length_le.trans length, numbers.sublist (hsub.map _), order.sublist hsub,
    fun x hx => bounds x (hsub.subset hx)⟩

/-- A mark of a new number, captured now with a tick in range, joins a sound queue that has room. -/
theorem marksSound_append {now : Nat} {m : ReaderMarks} {x : Mark} (next : BitVec 8) (h : MarksSound now m)
    (room : m.queue.length < 32) (fresh : ∀ y ∈ m.queue, y.number ≠ x.number) (captured : x.captured = now)
    (tick : x.tick ≤ 16777214) : MarksSound now { queue := m.queue ++ [x], next } := by
  obtain ⟨-, numbers, order, bounds⟩ := h
  refine ⟨?_, ?_, ?_, fun y hy => ?_⟩
  · simpa using room
  · rw [List.map_append, List.nodup_append]
    refine ⟨numbers, by simp, fun n hn k hk same => ?_⟩
    obtain ⟨y, hy, rfl⟩ := List.mem_map.mp hn
    exact fresh y hy (by simpa [same] using hk)
  · rw [List.pairwise_append]
    refine ⟨order, by simp, fun y hy z hz => ?_⟩
    rw [List.mem_singleton.mp hz, captured]
    exact (bounds y hy).1
  · rcases List.mem_append.mp hy with hy | hy
    · exact bounds y hy
    · rw [List.mem_singleton.mp hy]
      exact ⟨captured.le, tick⟩

/-- Sound marks stay sound as time passes. -/
theorem marksSound_later {now later : Nat} {m : ReaderMarks} (h : MarksSound now m) (le : now ≤ later) :
    MarksSound later m := by
  obtain ⟨length, numbers, order, bounds⟩ := h
  exact ⟨length, numbers, order, fun x hx => ⟨(bounds x hx).1.trans le, (bounds x hx).2⟩⟩

theorem marksSound_empty (now : Nat) (next : BitVec 8) : MarksSound now { queue := [], next } := by
  simp [MarksSound]

/-! ### A sound clock and mark unit (R23, R28) -/

/-- The clock and both mark queues of one unit are sound at a local time (R23, R28). -/
def ClockUnitSound (now : Nat) (x : CmuState) : Prop :=
  ClockSound x.clock ∧ MarksSound now x.marksA ∧ MarksSound now x.marksB

theorem timeSound_iff (s : State) : TimeSound s ↔ ClockUnitSound s.localTime s.cmu := Iff.rfl

theorem ClockUnitSound.marks {now : Nat} {x : CmuState} (h : ClockUnitSound now x) (r : Reader) :
    MarksSound now (x.marks r) := by
  cases r with
  | a => exact h.2.1
  | b => exact h.2.2

theorem ClockUnitSound.withMarks {now : Nat} {x : CmuState} {r : Reader} {m : ReaderMarks}
    (h : ClockUnitSound now x) (hm : MarksSound now m) : ClockUnitSound now (x.withMarks r m) := by
  obtain ⟨clock, marksA, marksB⟩ := h
  cases r with
  | a => exact ⟨clock, hm, marksB⟩
  | b => exact ⟨clock, marksA, hm⟩

theorem ClockUnitSound.withClock {now : Nat} {x : CmuState} {k : Clock} (h : ClockUnitSound now x)
    (hk : ClockSound k) : ClockUnitSound now { x with clock := k } := ⟨hk, h.2⟩

/-- A sound clock is at most at the maximum. -/
theorem clockSound_le {k : Clock} (h : ClockSound k) : k.value ≤ 16777215 := by
  unfold ClockSound at h
  split at h <;> omega

/-- A sound clock that runs is below the maximum. -/
theorem clockSound_running {k : Clock} (h : ClockSound k) (running : k.isRunning = true) :
    k.value ≤ 16777214 := by
  obtain ⟨start, hk⟩ := (isRunning_iff k).mp running
  simpa [ClockSound, hk] using h

/-- A loaded, a trimmed and an advanced clock is RUNNING below the maximum, or FULL at it. -/
theorem clockSound_of_running_or_full {k : Clock}
    (h : (∃ start, k.state = .running start ∧ k.value < 16777215) ∨ k = { value := 16777215, state := .full }) :
    ClockSound k := by
  rcases h with ⟨start, hk, lt⟩ | rfl
  · simp only [ClockSound, hk]
    omega
  · rfl

theorem clockLoaded_sound (now tick : Nat) : ClockSound (clockLoaded now tick) := by
  refine clockSound_of_running_or_full ?_
  unfold clockLoaded
  split
  · rename_i lt
    exact .inl ⟨now, rfl, lt⟩
  · exact .inr rfl

theorem clockTrimmed_sound (start value : Nat) (amount : Int) : ClockSound (clockTrimmed start value amount) := by
  refine clockSound_of_running_or_full ?_
  by_cases reaches : 16777215 ≤ (value : Int) + trimAmount amount
  · exact .inr (clockTrimmed_of_max reaches)
  · rw [clockTrimmed_of_lt reaches]
    exact .inl ⟨start, rfl, by dsimp only; omega⟩

theorem clockAdvanced_sound (start value : Nat) : ClockSound (clockAdvanced start value) := by
  refine clockSound_of_running_or_full ?_
  unfold clockAdvanced
  split
  · rename_i lt
    exact .inl ⟨_, rfl, lt⟩
  · exact .inr rfl

/-! ### Each move keeps the unit sound -/

/-- A capture with the clock running and its number free keeps the unit sound (R29). -/
theorem captureMark_sound {r : Reader} {n : BitVec 8} {s : State} (h : ClockUnitSound s.localTime s.cmu)
    (running : s.cmu.clock.isRunning = true) (fresh : ∀ x ∈ (s.cmu.marks r).queue, x.number ≠ n) :
    ClockUnitSound s.localTime (captureMark r n s).cmu := by
  by_cases room : (s.cmu.marks r).queue.length < 32
  · rw [captureMark_of_room room]
    exact h.withMarks (marksSound_append _ (h.marks r) room fresh rfl (clockSound_running h.1 running))
  · rw [captureMark_of_full (Nat.le_of_not_lt room)]
    exact h

theorem dropMark_sublist (n : BitVec 8) (q : List Mark) : (dropMark n q).Sublist q := List.filter_sublist

theorem markPulse_sound {s : State} (r : Reader) (h : ClockUnitSound s.localTime s.cmu) :
    ClockUnitSound s.localTime (markPulse r s).cmu := by
  by_cases running : s.cmu.clock.isRunning = true
  · by_cases taken : ∃ x ∈ (s.cmu.marks r).queue, x.number = (s.cmu.marks r).next
    · rw [markPulse_of_taken running taken]
      refine captureMark_sound (h.withMarks (marksSound_of_sublist (dropMark_sublist _ _) (h.marks r))) ?_ ?_
      · simpa using running
      · simp [dropMark]
    · rw [markPulse_of_fresh running (by simpa using taken)]
      refine captureMark_sound (h.withMarks (h.marks r)) ?_ ?_
      · simpa using running
      · simpa using taken
  · rw [markPulse_of_not_running (by simpa using running)]
    exact h.withMarks (h.marks r)

/-- Every move of the clock and mark unit keeps it sound. -/
theorem clockMove_sound {s : State} {x : CmuState} (move : ClockMove s x) (h : ClockUnitSound s.localTime s.cmu) :
    ClockUnitSound s.localTime x := by
  cases move with
  | stays => exact h
  | set tick range => exact h.withClock (clockLoaded_sound _ tick)
  | stopped => exact h.withClock (clockSound_le (k := s.cmu.clock) h.1)
  | trimmed start amount => exact h.withClock (clockTrimmed_sound start _ amount)
  | advanced start => exact h.withClock (clockAdvanced_sound start _)
  | pulsed r => exact markPulse_sound r h
  | marksLeft r n => exact h.withMarks (marksSound_of_sublist (dropMark_sublist n _) (h.marks r))
  | marksReset c =>
    unfold resetMarks
    split
    · exact h.withMarks (marksSound_empty _ _)
    · exact h
  | wavesStored waves => exact h
  | raceCleared => exact ⟨Nat.zero_le _, marksSound_empty _ _, marksSound_empty _ _⟩

/-- The unit at power-on is sound (R39). -/
theorem cmuAtPowerOn_sound (now : Nat) : ClockUnitSound now cmuAtPowerOn :=
  ⟨Nat.zero_le _, marksSound_empty now _, marksSound_empty now _⟩

theorem exec_timeSound {i : Instr} {s t : State} (h : exec i s = .next t) (hs : TimeSound s) : TimeSound t := by
  by_cases hp : i = .powerOn
  · subst hp
    cases h
    exact cmuAtPowerOn_sound _
  · by_cases hr : i = .resetAsserted
    · subst hr
      cases h
      exact cmuAtPowerOn_sound _
    · obtain ⟨-, time, -⟩ := exec_moves h hp hr
      rw [timeSound_iff, time]
      exact clockMove_sound (exec_movesClock h hp hr) hs

/-! ### Every step -/

/-- A property that the queue has no part in is kept by every step when every command and the passing of time
keep it. -/
theorem step_keeps {P : State → Prop} (queue : ∀ s q, P s → P (s.withPending q))
    (hexec : ∀ i s t, exec i s = .next t → P s → P t) (time : ∀ s, P s → P (passMillisecond s)) {s t : State}
    (h : step s = .next t) (hs : P s) : P t := by
  rcases step_cases h with ⟨c, rest, -, h⟩ | ⟨-, e, -, h⟩ | ⟨-, -, rfl⟩
  · exact hexec c _ t h (queue s rest hs)
  · exact hexec e s t h hs
  · exact time s hs

theorem passMillisecond_timeSound {s : State} (h : TimeSound s) : TimeSound (passMillisecond s) := by
  unfold passMillisecond
  split
  · exact h
  · obtain ⟨clock, marksA, marksB⟩ := h
    exact ⟨clock, marksSound_later marksA (Nat.le_succ _), marksSound_later marksB (Nat.le_succ _)⟩

/-- Settles O25: every move of the clock and mark unit keeps it sound, and so does the passing of time. -/
theorem everyStepKeepsTimeSound : Obligations.EveryStepKeepsTimeSound := fun _ _ hs h =>
  step_keeps (fun _ _ => id) (fun _ _ _ => exec_timeSound) (fun _ => passMillisecond_timeSound) h hs

end Sys2Proof.Machine
end

section
/-! Crossing intake: Point Setup, the classes of R50, and what the two crossing reports check (sections 3.1 to
3.5). -/

namespace Sys2Proof.Machine

/-! ### Point Setup (R43) -/

theorem pointOk_eq_false_iff (l d1 d2 g : Nat) :
    pointOk l d1 d2 g = false ↔
      l < 1000 ∨ 60000 < l ∨ l < d1 ∨ (d2 ≠ 0 ∧ (d2 ≤ d1 ∨ l < d2)) ∨ g < 6000 ∨ 360000 < g := by
  simp only [pointOk, Bool.and_eq_false_iff, Bool.or_eq_false_iff, decide_eq_false_iff_not,
    beq_eq_false_iff_ne]
  omega

theorem pointSetup_of_badValue {l d1 d2 g : Nat} (w : Nat) {s : State}
    (rest : ¬ s.cmu.clock.isRunning = true) (bad : pointOk l d1 d2 g = false) :
    pointSetup l d1 d2 g w s = .refused .badValue s := by
  rw [pointSetup, if_neg rest, bad]
  rfl

theorem pointSetup_of_good {l d1 d2 g : Nat} (w : Nat) {s : State}
    (rest : ¬ s.cmu.clock.isRunning = true) (good : ¬ pointOk l d1 d2 g = false) :
    pointSetup l d1 d2 g w s =
      .done (s.withCi { courseLength := l, d1, d2, gap := g, window := clamp 100 3000 w }) := by
  rw [pointSetup, if_neg rest, if_pos (by simpa using good)]

/-- Settles O26: the clock check, then the checks of the values, then the five values stored. -/
theorem pointSetupResult : Obligations.PointSetupResult := by
  intro c p s hd payload l d1 d2 g
  show execPointSetup p s = _
  split
  · rename_i running
    exact receive_of_refused hd (if_pos running)
  · rename_i rest
    have checks := pointOk_eq_false_iff l d1 d2 g
    split
    · rename_i bad
      exact receive_of_refused hd (pointSetup_of_badValue _ rest (checks.mpr bad))
    · rename_i good
      exact receive_of_done hd (pointSetup_of_good _ rest (mt checks.mp good))

/-! ### Classes (R50) -/

theorem classify_of_pass1_absent (point : PointSettings) {r : Record} (x : Nat) (h : r.pass1 = none) :
    classify point r x = .pass1 := by
  simp [classify, h]

/-- The rows of R50 for a record with pass 1 alone, from the top. -/
theorem classify_of_pass1_alone (point : PointSettings) {r : Record} {p : Pass} (x : Nat)
    (h1 : r.pass1 = some p) (h2 : r.pass2 = none) :
    classify point r x =
      if p.tick ≤ x + point.window ∧ x < p.tick then .revision1
      else if p.tick ≤ x ∧ x ≤ p.tick + point.window then .duplicate
      else if point.d2 ≠ 0 ∧ p.tick + point.gap ≤ x then .pass2
      else .extra := by
  simp only [classify, h1, h2]

/-- The rows of R50 for a record with both passes, from the top. -/
theorem classify_of_both_passes (point : PointSettings) {r : Record} {p1 p2 : Pass} (x : Nat)
    (h1 : r.pass1 = some p1) (h2 : r.pass2 = some p2) :
    classify point r x =
      if p2.tick ≤ x + point.window ∧ x < p2.tick then .revision2
      else if p2.tick ≤ x ∧ x ≤ p2.tick + point.window then .duplicate
      else .extra := by
  simp only [classify, h1, h2]

/-- Settles O27: by the passes the record holds, then row by row; p - w is compared as p against x + w. -/
theorem classificationFollowsTheTable : Obligations.ClassificationFollowsTheTable := by
  intro point r x w
  refine ⟨classify_of_pass1_absent point x, fun p h1 h2 => ?_, fun p1 p2 h1 h2 => ?_⟩
  · rw [classify_of_pass1_alone point x h1 h2]
    refine ⟨fun row => if_pos (by omega), fun row => ?_, fun outside => ?_⟩
    · rw [if_neg (by omega), if_pos (by omega)]
    · rw [if_neg (by omega), if_neg (by omega)]
      exact ⟨fun row => if_pos row, fun row => if_neg row⟩
  · rw [classify_of_both_passes point x h1 h2]
    refine ⟨fun row => if_pos (by omega), fun row => ?_, fun outside => ?_⟩
    · rw [if_neg (by omega), if_pos (by omega)]
    · rw [if_neg (by omega), if_neg (by omega)]

/-! ### The bib and its slot (R48, R49) -/

theorem crossing_of_badBib (reader : Reader) (timed : Bool) {bib : Nat} (x : Nat) (s : State)
    (bad : bib = 0 ∨ 65534 < bib) : crossing reader timed bib x s = .refused .badBib s :=
  if_neg (Bool.eq_false_iff.mp ((bibOk_eq_false_iff bib).mpr bad))

theorem crossing_of_slot (reader : Reader) (timed : Bool) {bib : Nat} (x : Nat) {s t : State} {i : Slot}
    (good : 1 ≤ bib ∧ bib ≤ 65534) (slot : crossingSlot bib s = some (i, t)) :
    crossing reader timed bib x s = .done (crossSlot i reader timed x t) := by
  have ok : bibOk bib = true := by simpa [bibOk] using good
  rw [crossing, if_pos ok, slot]

theorem crossingSlot_of_present {bib : Nat} {s : State} {i : Slot} (h : s.rt.lookup bib = some i) :
    crossingSlot bib s = some (i, s) := by
  simp only [crossingSlot, h]

theorem crossingSlot_of_absent {bib : Nat} {s : State} (h : s.rt.lookup bib = none) :
    crossingSlot bib s = allocateForCrossing bib s := by
  simp only [crossingSlot, h]

/-! ### Claims (R31, R46) -/

theorem claimed_of_absent {s : State} {r : Reader} {number : Nat}
    (absent : ∀ x ∈ (s.cmu.marks r).queue, x.number.toNat ≠ number) : claimed s r number = none := by
  simpa [claimed] using absent

/-- Two places of a list with distinct images hold different ones. -/
theorem ne_of_nodup_map_middle {α β : Type} {f : α → β} {before rest : List α} {x y : α}
    (distinct : ((before ++ x :: rest).map f).Nodup) (hy : y ∈ before ++ rest) : f y ≠ f x := by
  rw [List.map_append, List.map_cons, List.nodup_middle, ← List.map_append, List.nodup_cons] at distinct
  exact fun same => distinct.1 (same ▸ List.mem_map_of_mem hy)

theorem claimed_of_queued {s : State} {r : Reader} {before rest : List Mark} {x : Mark}
    (queue : (s.cmu.marks r).queue = before ++ x :: rest)
    (distinct : ((s.cmu.marks r).queue.map fun y => y.number).Nodup) :
    claimed s r x.number.toNat = some x := by
  rw [queue] at distinct
  rw [claimed, queue, List.find?_eq_some_iff_append]
  refine ⟨by simp, before, rest, rfl, fun y hy => ?_⟩
  have other : y.number ≠ x.number := ne_of_nodup_map_middle distinct (List.mem_append_left _ hy)
  simpa [BitVec.toNat_inj] using other

/-- A claimed mark leaves its queue, and no other mark does (R31). -/
theorem dropMark_middle {before rest : List Mark} {x : Mark}
    (distinct : ((before ++ x :: rest).map fun y => y.number).Nodup) :
    dropMark x.number (before ++ x :: rest) = before ++ rest := by
  have others : (before ++ rest).filter (fun y => y.number ≠ x.number) = before ++ rest :=
    List.filter_eq_self.mpr fun y hy => by simpa using ne_of_nodup_map_middle distinct hy
  rw [List.filter_append] at others
  rw [dropMark, List.filter_append, List.filter_cons_of_neg (by simp), others]

theorem crossingReport_of_absent {s : State} {r : Reader} (bib : Nat) {number : Nat}
    (absent : ∀ x ∈ (s.cmu.marks r).queue, x.number.toNat ≠ number) :
    crossingReport r bib number s = .refused .noSuchMark s := by
  simp only [crossingReport, claimed_of_absent absent]

theorem crossingReport_of_queued {s : State} {r : Reader} {before rest : List Mark} {x : Mark} (bib : Nat)
    (queue : (s.cmu.marks r).queue = before ++ x :: rest)
    (distinct : ((s.cmu.marks r).queue.map fun y => y.number).Nodup) :
    crossingReport r bib x.number.toNat s =
      crossing r false bib x.tick
        (s.withCmu (s.cmu.withMarks r { s.cmu.marks r with queue := before ++ rest })) := by
  simp only [crossingReport, claimed_of_queued queue distinct]
  rw [queue, dropMark_middle (queue ▸ distinct)]
  rfl

/-! ### The reports (R45 to R47) -/

theorem readerOf_eq_some {c : Channel} {r : Reader} (h : (c = 0 ∧ r = .a) ∨ (c = 1 ∧ r = .b)) :
    readerOf c = some r := by
  rcases h with ⟨rfl, rfl⟩ | ⟨rfl, rfl⟩ <;> rfl

theorem exec_crossingReport {c : Channel} {p : Packet} {s : State} {r : Reader}
    (hd : Delivered .crossingReport c p s) (reader : readerOf c = some r) :
    exec (.crossingReport p) s =
      receive .crossingReport p
        (fun _ s => crossingReport r (halfAt (payloadOf p) 0) (halfAt (payloadOf p) 2) s) s := by
  show execCrossingReport p s = _
  rw [execCrossingReport, receive_delivered _ hd, receive_delivered _ hd, reader]

theorem exec_timedCrossingReport {c : Channel} {p : Packet} {s : State} {r : Reader}
    (hd : Delivered .timedCrossingReport c p s) (reader : readerOf c = some r) :
    exec (.timedCrossingReport p) s =
      receive .timedCrossingReport p
        (fun _ s => timedCrossingReport r (halfAt (payloadOf p) 0) (longAt (payloadOf p) 2) s) s := by
  show execTimedCrossingReport p s = _
  rw [execTimedCrossingReport, receive_delivered _ hd, receive_delivered _ hd, reader]

theorem crossingReportResult : Claims.CrossingReportResult := by
  intro c p s r hd channel bib number m
  rw [exec_crossingReport hd (readerOf_eq_some channel)]
  constructor
  · exact fun absent => receive_of_refused hd (crossingReport_of_absent bib absent)
  · intro before rest x queue named distinct t
    have taken : crossingReport r bib number s = crossing r false bib x.tick t :=
      named ▸ crossingReport_of_queued bib queue distinct
    refine ⟨fun bad => receive_of_refused hd (taken.trans (crossing_of_badBib r false x.tick t bad)),
      fun good => ⟨fun i present => ?_, fun i u absent allocated => ?_⟩⟩
    · have slot : crossingSlot bib t = some (i, t) := crossingSlot_of_present present
      exact receive_of_done hd (taken.trans (crossing_of_slot r false x.tick good slot))
    · have slot : crossingSlot bib t = some (i, u) := (crossingSlot_of_absent (s := t) absent).trans allocated
      exact receive_of_done hd (taken.trans (crossing_of_slot r false x.tick good slot))

theorem isStopped_iff (k : Clock) : k.isStopped = true ↔ k.state = .stopped := by
  simp [Clock.isStopped]

theorem timedCrossingReport_of_tick (r : Reader) (bib : Nat) {x : Nat} {s : State}
    (started : s.cmu.clock.state ≠ .stopped) (past : x ≤ s.cmu.clock.value) :
    timedCrossingReport r bib x s = crossing r true bib x s := by
  rw [timedCrossingReport, if_neg (mt (isStopped_iff _).mp started), if_neg (Nat.not_lt.mpr past)]

theorem timedCrossingReportResult : Claims.TimedCrossingReportResult := by
  intro c p s r hd channel bib x
  rw [exec_timedCrossingReport hd (readerOf_eq_some channel)]
  refine ⟨fun stopped => receive_of_refused hd (if_pos ((isStopped_iff _).mpr stopped)),
    fun started => ⟨fun future => receive_of_refused hd ?_, fun past => ?_⟩⟩
  · exact (if_neg (mt (isStopped_iff _).mp started)).trans (if_pos future)
  · have taken := timedCrossingReport_of_tick r bib started past
    refine ⟨fun bad => receive_of_refused hd (taken.trans (crossing_of_badBib r true x s bad)),
      fun good => ⟨fun i present => ?_, fun i u absent allocated => ?_⟩⟩
    · exact receive_of_done hd
        (taken.trans (crossing_of_slot r true x good (crossingSlot_of_present present)))
    · exact receive_of_done hd
        (taken.trans (crossing_of_slot r true x good ((crossingSlot_of_absent absent).trans allocated)))

/-- Settles O28: the claim or the tick check, the bib check, then the slot the bib has or is given. -/
theorem crossingReportsAreTaken : Obligations.CrossingReportsAreTaken :=
  ⟨crossingReportResult, timedCrossingReportResult⟩

end Sys2Proof.Machine
end

section
/-! The course of a crossing: its record, its log entry, its routing to the board and its place in the recency
order (sections 3.5 to 3.8). -/

namespace Sys2Proof.Machine

/-! ### What a routing reaches (R56 to R59) -/

/-- `t` is `s` with nothing changed but the feature controller, the list controller, the hold counts and the
board block: all that the routing of a crossing can reach. -/
def OnlyRouting (s t : State) : Prop :=
  t = (((s.withFc t.fc).withLs t.ls).withBi t.bi).withRt { s.rt with holds := t.rt.holds }

theorem onlyRouting_refl (s : State) : OnlyRouting s s := rfl

theorem OnlyList.onlyRouting {s t : State} (h : OnlyList s t) : OnlyRouting s t := by
  obtain ⟨_, _, _, _, _, _, rfl⟩ := onlyList_iff.mp h
  rfl

theorem OnlyBand.onlyRouting {s t : State} (h : OnlyBand s t) : OnlyRouting s t := by
  obtain ⟨_, _, _, rfl⟩ := onlyBand_iff.mp h
  rfl

/-- A leader flag set before the routing is within its reach (R56). -/
theorem OnlyRouting.of_withFc {s t : State} {f : FeatureState} (h : OnlyRouting (s.withFc f) t) :
    OnlyRouting s t := h

theorem routePass_onlyRouting (i : Slot) (pass : PassNo) (x : Nat) (r : Record) (s : State) :
    OnlyRouting s (routePass i pass x r s) := by
  unfold routePass
  split
  · dsimp only
    split
    · exact (requestFeature_onlyBand _ _ _).onlyRouting.of_withFc
    · exact (arrive_onlyList _ _ _ _ _).onlyRouting.of_withFc
  · split
    · exact (requestFeature_onlyBand _ _ s).onlyRouting
    · exact (arrive_onlyList _ _ _ _ s).onlyRouting

theorem routeCrossing_onlyRouting (i : Slot) (cls : Class) (x : Nat) (r : Record) (s : State) :
    OnlyRouting s (routeCrossing i cls x r s) := by
  cases cls
  case pass1 => exact routePass_onlyRouting i .one x r s
  case pass2 => exact routePass_onlyRouting i .two x r s
  case revision1 => exact (rerender_onlyCells i s).onlyList.onlyRouting
  case revision2 => exact (rerender_onlyCells i s).onlyList.onlyRouting
  case duplicate => exact onlyRouting_refl s
  case extra => exact onlyRouting_refl s

/-! ### Leader test and pin test (R56, R57) -/

/-- A crossing that passes the leader test is featured at the leader level (R56). -/
theorem leaderLevelFor_of_leader {f : FeatureState} {pass : PassNo} {r : Record}
    (h : f.leaderFlag pass = false ∧ (r.derived pass).raceTime ≠ none) :
    leaderLevelFor f pass r = f.leaderLevel := by
  obtain ⟨clear, time⟩ := h
  rw [leaderLevelFor, clear, if_neg Bool.false_ne_true, if_pos (Option.isSome_iff_ne_none.mpr time)]

theorem leaderLevelFor_of_not_leader {f : FeatureState} {pass : PassNo} {r : Record}
    (h : ¬ (f.leaderFlag pass = false ∧ (r.derived pass).raceTime ≠ none)) :
    leaderLevelFor f pass r = none := by
  unfold leaderLevelFor
  split
  · rfl
  · rename_i clear
    exact if_neg fun time => h ⟨by simpa using clear, Option.isSome_iff_ne_none.mp time⟩

theorem pinFeatureLevel_of_pinned {s : State} {r : Record} {k : Level} (pinned : r.pin = some k)
    (band : 1 ≤ s.bi.bandHeight) (unmasked : s.fc.mask.getLsbD k.val = false) :
    pinFeatureLevel s r = some k := by
  simp only [pinFeatureLevel, pinned]
  exact if_pos ⟨band, by rw [FeatureState.masked, unmasked]; rfl⟩

theorem pinFeatureLevel_of_not {s : State} {r : Record}
    (h : r.pin = none ∨ s.bi.bandHeight = 0 ∨ ∃ k, r.pin = some k ∧ s.fc.mask.getLsbD k.val = true) :
    pinFeatureLevel s r = none := by
  rcases h with unpinned | closed | ⟨k, pinned, masked⟩
  · simp only [pinFeatureLevel, unpinned]
  · unfold pinFeatureLevel
    split
    · exact if_neg (by omega)
    · rfl
  · simp [pinFeatureLevel, FeatureState.masked, pinned, masked]

theorem routePass_of_leader (i : Slot) {pass : PassNo} (x : Nat) {r : Record} {s : State} {k : Level}
    (h : leaderLevelFor s.fc pass r = some k) :
    routePass i pass x r s =
      if 1 ≤ s.bi.bandHeight then
        requestFeature k { slot := i, bib := r.bib, kind := .leader } (s.withFc (s.fc.setLeader pass))
      else arrive i r.bib pass x (s.withFc (s.fc.setLeader pass)) := by
  simp only [routePass, h]
  rfl

theorem routePass_of_pinned (i : Slot) {pass : PassNo} (x : Nat) {r : Record} {s : State} {k : Level}
    (follower : leaderLevelFor s.fc pass r = none) (pinned : pinFeatureLevel s r = some k) :
    routePass i pass x r s = requestFeature k { slot := i, bib := r.bib, kind := .runner } s := by
  simp only [routePass, follower, pinned]

theorem routePass_of_neither (i : Slot) {pass : PassNo} (x : Nat) {r : Record} {s : State}
    (follower : leaderLevelFor s.fc pass r = none) (unpinned : pinFeatureLevel s r = none) :
    routePass i pass x r s = arrive i r.bib pass x s := by
  simp only [routePass, follower, unpinned]

/-- Settles O29: the leader test, then the pin test, then the list; the other classes by their row. -/
theorem crossingIsRouted : Obligations.CrossingIsRouted := by
  intro i pass x r s cls t leader led
  have routed : t = routePass i pass x r s := by cases pass <;> rfl
  have ledEq : s.withFc (s.fc.setLeader pass) = led := by cases pass <;> rfl
  have leaderIff : leader ↔ s.fc.leaderFlag pass = false ∧ (r.derived pass).raceTime ≠ none := by
    cases pass <;> simp [leader, FeatureState.leaderFlag, Record.derived]
  refine ⟨fun k level lead => ?_, fun follows => ?_, rfl, rfl, rfl, rfl⟩
  · have levelFor := (leaderLevelFor_of_leader (leaderIff.mp lead)).trans level
    rw [routed, routePass_of_leader i x levelFor, ledEq]
  · have follower : leaderLevelFor s.fc pass r = none := by
      by_cases lead : leader
      · rw [leaderLevelFor_of_leader (leaderIff.mp lead)]
        exact follows.resolve_right (not_not_intro lead)
      · exact leaderLevelFor_of_not_leader (mt leaderIff.mpr lead)
    refine ⟨fun k pinned band unmasked => ?_, fun unpinned => ?_⟩
    · exact routed.trans
        (routePass_of_pinned i x follower (pinFeatureLevel_of_pinned pinned band unmasked))
    · exact routed.trans (routePass_of_neither i x follower (pinFeatureLevel_of_not unpinned))

/-! ### Steps 4 to 6: the record and the log (R51 to R55) -/

theorem updateRecord_bib (cls : Class) (x : Nat) (source : Source) (r : Record) :
    (updateRecord cls x source r).bib = r.bib := by
  cases cls
  case duplicate => exact apply_ite Record.bib _ _ _ |>.trans (ite_self _)
  all_goals rfl

theorem crossedRecord_bib (s : State) (cls : Class) (x : Nat) (source : Source) (r : Record) :
    (crossedRecord s cls x source r).bib = r.bib := by
  unfold crossedRecord
  dsimp only
  split
  · exact updateRecord_bib cls x source r
  · exact updateRecord_bib cls x source r

theorem logCrossing_sl (cls : Class) (reader : Reader) (timed : Bool) (x : Nat) (r : Record) (s : State) :
    (logCrossing cls reader timed x r s).sl =
      if cls = .duplicate then s.sl else s.sl.append r.bib reader timed x cls r.waveInUse := by
  cases cls <;> rfl

theorem logCrossing_eq (cls : Class) (reader : Reader) (timed : Bool) (x : Nat) (r : Record) (s : State) :
    logCrossing cls reader timed x r s = s.withSl (logCrossing cls reader timed x r s).sl := by
  cases cls <;> rfl

/-- The record a crossing of a slot with record `r` leaves there: classified, updated and derived (R50 to
R53). -/
def recordAfter (reader : Reader) (timed : Bool) (x : Nat) (r : Record) (s : State) : Record :=
  crossedRecord s (classify s.ci r x) x (sourceOf reader timed) r

/-- The state that steps 4 to 6 of a crossing leave: record stored, crossing logged. -/
def recordedAndLogged (i : Slot) (reader : Reader) (timed : Bool) (x : Nat) (r : Record) (s : State) : State :=
  logCrossing (classify s.ci r x) reader timed x (recordAfter reader timed x r s)
    (s.withRt (s.rt.put i (recordAfter reader timed x r s)))

theorem recordedAndLogged_eq (i : Slot) (reader : Reader) (timed : Bool) (x : Nat) (r : Record) (s : State) :
    recordedAndLogged i reader timed x r s =
      (s.withRt (s.rt.put i (recordAfter reader timed x r s))).withSl
        (recordedAndLogged i reader timed x r s).sl :=
  logCrossing_eq ..

/-! ### Steps 7 and 8 (R45, R60) -/

theorem crossingRecency_eq (i : Slot) (cls : Class) (s : State) :
    crossingRecency i cls s =
      s.withRt
        { s.rt with
          order := if cls = .duplicate ∨ cls = .extra then s.rt.order else i :: s.rt.order.erase i } := by
  cases cls <;> rfl

/-- The course of a crossing: steps 4 to 6, the routing of its class, the recency order (R45). -/
theorem crossSlot_of_occupied {i : Slot} (reader : Reader) (timed : Bool) (x : Nat) {r : Record} {s : State}
    (h : s.rt.slots[i] = some r) :
    crossSlot i reader timed x s =
      crossingRecency i (classify s.ci r x)
        (routeCrossing i (classify s.ci r x) x (recordAfter reader timed x r s)
          (recordedAndLogged i reader timed x r s)) := by
  simp only [crossSlot, h]
  rfl

/-- A crossing leaves its record and its log entry, what its routing reaches, and its recency order. -/
theorem crossSlot_frame {i : Slot} (reader : Reader) (timed : Bool) (x : Nat) {r : Record} {s : State}
    (h : s.rt.slots[i] = some r) :
    ∃ fc ls bi holds,
      crossSlot i reader timed x s =
        ((((s.withSl (recordedAndLogged i reader timed x r s).sl).withFc fc).withLs ls).withBi bi).withRt
          { s.rt.put i (recordAfter reader timed x r s) with
            holds
            order :=
              if classify s.ci r x = .duplicate ∨ classify s.ci r x = .extra then s.rt.order
              else i :: s.rt.order.erase i } := by
  rw [crossSlot_of_occupied reader timed x h, crossingRecency_eq, routeCrossing_onlyRouting,
    recordedAndLogged_eq]
  exact ⟨_, _, _, _, rfl⟩

theorem crossSlot_slots_self {i : Slot} (reader : Reader) (timed : Bool) (x : Nat) {r : Record} {s : State}
    (h : s.rt.slots[i] = some r) :
    (crossSlot i reader timed x s).rt.slots[i] = some (recordAfter reader timed x r s) := by
  obtain ⟨_, _, _, _, frame⟩ := crossSlot_frame reader timed x h
  rw [frame]
  exact RunnerTable.put_slots_self ..

theorem crossSlot_sl {i : Slot} (reader : Reader) (timed : Bool) (x : Nat) {r : Record} {s : State}
    (h : s.rt.slots[i] = some r) :
    (crossSlot i reader timed x s).sl = (recordedAndLogged i reader timed x r s).sl := by
  obtain ⟨_, _, _, _, frame⟩ := crossSlot_frame reader timed x h
  rw [frame]
  rfl

theorem crossingUpdatesTheRecord : Claims.CrossingUpdatesTheRecord := by
  intro i reader timed x r s occupied t source revised counted derived
  have sourceEq : source = sourceOf reader timed := by cases reader <;> cases timed <;> rfl
  refine ⟨fun j other => ?_, ?_, ?_⟩
  · obtain ⟨_, _, _, _, frame⟩ := crossSlot_frame reader timed x occupied
    show (crossSlot i reader timed x s).rt.slots[j] = _
    rw [frame]
    exact RunnerTable.put_slots_ne s.rt _ other
  · refine (crossSlot_slots_self reader timed x occupied).trans (congrArg some ?_)
    unfold recordAfter
    rw [← sourceEq]
    cases classify s.ci r x <;> rfl
  · obtain ⟨_, _, _, _, frame⟩ := crossSlot_frame reader timed x occupied
    rw [show t = _ from frame]
    exact ⟨rfl, rfl, rfl, rfl, rfl, rfl, rfl⟩

theorem crossingIsLogged : Claims.CrossingIsLogged := by
  intro i reader timed x r q s occupied left cls
  obtain rfl : recordAfter reader timed x r s = q :=
    Option.some.inj ((crossSlot_slots_self reader timed x occupied).symm.trans left)
  have bib : (recordAfter reader timed x r s).bib = r.bib := crossedRecord_bib ..
  rw [crossSlot_sl reader timed x occupied, recordedAndLogged, logCrossing_sl, bib]
  rfl

theorem crossingIsRoutedInItsPlace : Claims.CrossingIsRoutedInItsPlace := by
  intro i reader timed x r q s occupied left t logged routed
  obtain rfl : recordAfter reader timed x r s = q :=
    Option.some.inj ((crossSlot_slots_self reader timed x occupied).symm.trans left)
  have loggedEq : logged = recordedAndLogged i reader timed x r s := by
    rw [recordedAndLogged_eq, ← crossSlot_sl reader timed x occupied]
    rfl
  have course : t = crossingRecency i (classify s.ci r x) routed := by
    show crossSlot i reader timed x s = crossingRecency i _ (routeCrossing i _ x _ logged)
    rw [loggedEq]
    exact crossSlot_of_occupied reader timed x occupied
  rw [course, crossingRecency_eq]
  exact ⟨rfl, rfl, rfl, rfl, rfl⟩

theorem crossingMovesTheSlotToTheFront : Claims.CrossingMovesTheSlotToTheFront := by
  intro i reader timed x r s occupied cls
  obtain ⟨_, _, _, _, frame⟩ := crossSlot_frame reader timed x occupied
  rw [frame]
  rfl

/-- Settles O30: record, log entry, routing and recency order, each read off the course of the crossing. -/
theorem crossingIsRecordedAndLogged : Obligations.CrossingIsRecordedAndLogged :=
  ⟨crossingUpdatesTheRecord, crossingIsLogged, crossingIsRoutedInItsPlace, crossingMovesTheSlotToTheFront⟩

end Sys2Proof.Machine
end

section
/-! The runner table's lookup, victim choice and allocation (sections 3.4 and 4.1 to 4.4). -/

namespace Sys2Proof.Machine

/-! ### Victim choice and allocation (R68 to R70) -/

theorem isHeld_eq_false_iff (t : RunnerTable) (i : Slot) : t.isHeld i = false ↔ t.holds[i] = 0 := by
  simp [RunnerTable.isHeld]

/-- A slot that is pinned or held is no victim (R68). -/
theorem not_freeable {t : RunnerTable} {i : Slot} (h : t.isPinned i = true ∨ 0 < t.holds[i]) :
    (!t.isPinned i && !t.isHeld i) = false := by
  rcases h with pinned | held
  · simp [pinned]
  · rw [show t.isHeld i = true from decide_eq_true held, Bool.not_true, Bool.and_false]

/-- The least recent slot that is neither pinned nor held is the victim (R68). -/
theorem victim_of_first {t : RunnerTable} {front back : List Slot} {i : Slot}
    (order : t.order = front ++ i :: back) (unpinned : t.isPinned i = false) (free : t.holds[i] = 0)
    (others : ∀ j ∈ back, t.isPinned j = true ∨ 0 < t.holds[j]) : t.victim = some i := by
  rw [RunnerTable.victim, List.find?_eq_some_iff_append]
  refine ⟨?_, back.reverse, front.reverse, by simp [order], fun j hj => ?_⟩
  · rw [unpinned, (isHeld_eq_false_iff t i).mpr free]
    rfl
  · rw [not_freeable (others j (List.mem_reverse.mp hj))]
    rfl

/-- An eviction leaves every other slot (R69). -/
theorem evict_slots_ne (t : RunnerTable) {i j : Slot} (h : j ≠ i) : (t.evict i).slots[j] = t.slots[j] := by
  rw [RunnerTable.evict_eq]
  exact Vector.getElem_set_ne i.isLt j.isLt fun same => h (Fin.ext same.symm)

theorem allocate_of_victim {t : RunnerTable} {i : Slot} (r : Record) (h : t.victim = some i) :
    t.allocate r = some (i, ((t.evict i).put i r).toFront i) := by
  simp only [RunnerTable.allocate, h]

theorem allocate_of_no_victim {t : RunnerTable} (r : Record) (h : t.victim = none) : t.allocate r = none := by
  simp only [RunnerTable.allocate, h]

theorem erase_middle {α : Type} [DecidableEq α] {front back : List α} {x : α}
    (distinct : (front ++ x :: back).Nodup) : (front ++ x :: back).erase x = front ++ back := by
  have absent : x ∉ front := fun hx =>
    (List.nodup_middle.mp distinct).notMem (List.mem_append_left _ hx)
  rw [List.erase_append_right _ absent, List.erase_cons_head]

theorem allocationTakesTheLeastRecentFreeable : Claims.AllocationTakesTheLeastRecentFreeable := by
  intro t r
  refine ⟨fun front back i order distinct unpinned free others => ?_, fun none_free => ?_⟩
  · refine ⟨_, allocate_of_victim r (victim_of_first order unpinned free others),
      RunnerTable.put_slots_self .., fun j other => ?_, ?_, ?_⟩
    · exact (RunnerTable.put_slots_ne _ r other).trans (evict_slots_ne t other)
    · rw [RunnerTable.evict_eq]
      exact congrArg (i :: ·) (order ▸ erase_middle (order ▸ distinct))
    · rw [RunnerTable.evict_eq]
      exact ⟨rfl, rfl, rfl⟩
  · refine allocate_of_no_victim r (List.find?_eq_none.mpr fun j hj => ?_)
    rw [not_freeable (none_free j (List.mem_reverse.mp hj))]
    exact Bool.false_ne_true

/-! ### The slot of an absent bib (R49, R70, R72) -/

/-- A new record's derivation resolves its wave and changes nothing else (R49, R88). -/
theorem derive_fresh (waves : Vector WaveEntry 8) (point : PointSettings) (bib : Nat) (fill : FillState) :
    derive waves point (Record.fresh bib fill) =
      { Record.fresh bib fill with waveInUse := resolveWave waves (Record.fresh bib .new) } := rfl

/-- An allocated slot holds the record it was allocated for. -/
theorem allocate_slots_self {t u : RunnerTable} {r : Record} {i : Slot} (h : t.allocate r = some (i, u)) :
    u.slots[i] = some r := by
  obtain ⟨-, rfl⟩ := allocate_some h
  exact RunnerTable.put_slots_self ..

/-- Everything the allocation for a crossing can do: a new record with a fill request, or an unfilled one. -/
theorem allocateForCrossing_some {bib : Nat} {s u : State} {i : Slot}
    (h : allocateForCrossing bib s = some (i, u)) :
    ∃ t, s.rt.allocate (derive s.cmu.waves s.ci (Record.fresh bib .new)) = some (i, t) ∧
      u =
        if t.fills.length < 32 then s.withRt (t.enterFill bib i)
        else s.withRt (t.put i (derive s.cmu.waves s.ci (Record.fresh bib .unfilled))) := by
  unfold allocateForCrossing at h
  split at h
  · cases h
  · rename_i j t allocated
    split at h
    · rename_i room
      cases h
      exact ⟨t, allocated, (if_pos room).symm⟩
    · rename_i full
      cases h
      exact ⟨t, allocated, (if_neg full).symm⟩

theorem crossingOfAnAbsentBibAllocates : Claims.CrossingOfAnAbsentBibAllocates := by
  intro bib s u i taken
  obtain ⟨t, allocated, rfl⟩ := allocateForCrossing_some taken
  refine ⟨t, allocated, ?_⟩
  by_cases room : t.fills.length < 32
  · simp only [if_pos room]
    have stored : t.slots[i] = some _ := allocate_slots_self allocated
    exact ⟨rfl, rfl, rfl, rfl, fun _ _ => rfl, _, stored, derive_fresh .., rfl⟩
  · simp only [if_neg room]
    exact ⟨rfl, rfl, rfl, rfl, fun _ other => RunnerTable.put_slots_ne t _ other, _,
      RunnerTable.put_slots_self .., derive_fresh .., rfl⟩

/-! ### Slots (R62, R66, R67) -/

theorem isPinned_iff (t : RunnerTable) (i : Slot) :
    t.isPinned i = true ↔ ∃ r k, t.slots[i] = some r ∧ r.pin = some k := by
  unfold RunnerTable.isPinned
  split
  · rename_i r hr
    simp [hr, Option.isSome_iff_exists]
  · rename_i hr
    simp [hr]

theorem lookup_eq_none_iff (t : RunnerTable) (bib : Nat) :
    t.lookup bib = none ↔ ∀ (i : Slot) (r : Record), t.slots[i] = some r → r.bib ≠ bib := by
  refine ⟨lookup_none, fun absent => Option.eq_none_iff_forall_ne_some.mpr fun i found => ?_⟩
  obtain ⟨r, hr, same⟩ := lookup_some found
  exact absent i r hr same

theorem slotsOfTheTable : Claims.SlotsOfTheTable := fun t =>
  ⟨fun bib => ⟨fun _ => lookup_some, lookup_eq_none_iff t bib⟩,
    fun i => ⟨fun r occupied bib => by rw [RunnerTable.recordOf, occupied, Option.getD_some],
      isPinned_iff t i, rfl, rfl⟩,
    rfl⟩

theorem newRecords : Claims.NewRecords := fun _ _ => ⟨rfl, rfl⟩

/-- Settles O31: victim choice and eviction, the slot of an absent bib, lookup and pins, new records. -/
theorem allocationResult : Obligations.AllocationResult :=
  ⟨allocationTakesTheLeastRecentFreeable, crossingOfAnAbsentBibAllocates, slotsOfTheTable, newRecords⟩

end Sys2Proof.Machine
end

section
/-! The cells of board lines: list lines, band lines and idle lines, what a write replaces and what a re-render
writes (sections 7.6, 8.1 and 9.1). -/

namespace Sys2Proof.Machine

/-! ### Texts and their lengths (R95, R96, R140) -/

theorem rightDecimal_of_lt (w : Nat) {n : Nat} (h : n < 10) : rightDecimal (w + 1) n = spaces w ++ [digit n] := by
  rw [rightDecimal, if_pos h]

theorem rightDecimal_of_ge (w : Nat) {n : Nat} (h : ¬ n < 10) :
    rightDecimal (w + 1) n = rightDecimal w (n / 10) ++ [digit n] := by
  rw [rightDecimal, if_neg h]

theorem rightDecimal_one (n : Nat) : rightDecimal 1 n = [digit n] := by
  rw [rightDecimal]
  split <;> rfl

/-- A number in one more cell: a leading space while it is small enough, else its leading digit (R140). -/
theorem rightDecimal_succ (w n : Nat) :
    rightDecimal (w + 2) n =
      (if n < 10 ^ (w + 1) then 0x20#8 else digit (n / 10 ^ (w + 1))) :: rightDecimal (w + 1) n := by
  induction w generalizing n with
  | zero => by_cases small : n < 10 <;> simp [rightDecimal, spaces, small]
  | succ w ih =>
    by_cases small : n < 10
    · have fits : n < 10 ^ (w + 1 + 1) := Nat.lt_of_lt_of_le small (Nat.le_self_pow (by omega) 10)
      rw [rightDecimal_of_lt _ small, rightDecimal_of_lt _ small, if_pos fits]
      rfl
    · have shorter : n / 10 < 10 ^ (w + 1) ↔ n < 10 ^ (w + 1 + 1) := by
        rw [Nat.div_lt_iff_lt_mul (by omega), ← Nat.pow_succ]
      rw [rightDecimal_of_ge _ small, ih, rightDecimal_of_ge _ small, Nat.div_div_eq_div_mul, ← Nat.pow_succ',
        List.cons_append]
      simp only [shorter]

@[simp] theorem length_rightDecimal (w n : Nat) : (rightDecimal w n).length = w := by
  induction w generalizing n with
  | zero => rfl
  | succ w ih =>
    rw [rightDecimal]
    split <;> simp [spaces, ih]

@[simp] theorem length_timeText (t : Option Nat) : (timeText t).length = 7 := by
  cases t <;> rfl

@[simp] theorem length_paceText (p : Option Nat) : (paceText p).length = 5 := by
  cases p with
  | none => rfl
  | some p =>
    rw [paceText]
    split <;> rfl

@[simp] theorem length_passMark (pass : Option PassNo) : (passMark pass).length = 3 := by
  rcases pass with - | - | - <;> rfl

@[simp] theorem length_spaces (n : Nat) : (spaces n).length = n := List.length_replicate

/-- A text in its cells: cell by cell its character, or a space beyond its end (R140). -/
theorem leftText_eq (width : Nat) (text : List Byte) :
    leftText width text = (List.range width).map fun i => text.getD i 0x20#8 := by
  refine List.ext_getElem (by simp) fun i hi _ => ?_
  rw [length_leftText] at hi
  rw [List.getElem_map, List.getElem_range]
  rcases Nat.lt_or_ge i text.length with inside | beyond
  · rw [List.getD_eq_getElem _ _ inside]
    simp [leftText, List.getElem_append_left, inside, hi]
  · rw [List.getD_eq_default _ _ beyond]
    simp [leftText, spaces, List.getElem_append_right, beyond]

/-! ### The runner line template (R140) -/

theorem length_runnerText (r : Record) (pass : Option PassNo) : (runnerText r pass).length = 44 := by
  simp [runnerText]

theorem length_runnerLine (r : Record) (pass : Option PassNo) : (runnerLine r pass).length = 48 := by
  simp [runnerLine, length_runnerText]

theorem runnerLineTemplate : Claims.RunnerLineTemplate := by
  intro r pass lead d mark
  have dEq : shownDerived r pass = d := by rcases pass with - | - | - <;> rfl
  have markEq : passMark pass = mark := by rcases pass with - | - | - <;> rfl
  refine ⟨?_, length_runnerLine r pass⟩
  rw [runnerLine, runnerText, markEq, leftText_eq, rightDecimal_succ, rightDecimal_succ, rightDecimal_succ,
    rightDecimal_succ, rightDecimal_one, dEq]
  rfl

/-- The values and the mark of a pass as they end the template (R134, R140). -/
def passText (r : Record) (pass : Option PassNo) : List Byte :=
  timeText (shownDerived r pass).raceTime ++ spaces 1 ++ paceText (shownDerived r pass).pace ++ spaces 1 ++
    timeText (shownDerived r pass).projection ++ spaces 1 ++ passMark pass

theorem runnerLine_eq_passText (r : Record) (pass : Option PassNo) :
    runnerLine r pass =
      rightDecimal 5 r.bib ++ spaces 1 ++ (leftText 16 (r.name.getD []) ++ spaces 1 ++ passText r pass) := by
  simp only [runnerLine, runnerText, passText, List.append_assoc]

theorem take_bib_runnerLine (r : Record) (pass : Option PassNo) :
    (runnerLine r pass).take 6 = rightDecimal 5 r.bib ++ spaces 1 := by
  rw [runnerLine_eq_passText]
  exact List.take_left' (by simp)

theorem drop_bib_and_name_runnerLine (r : Record) (pass : Option PassNo) :
    (runnerLine r pass).drop 23 = passText r pass := by
  rw [runnerLine_eq_passText, ← List.append_assoc]
  exact List.drop_left' (by simp)

theorem take_text_runnerLine (r : Record) (pass : Option PassNo) :
    (runnerLine r pass).take 44 = runnerText r pass := by
  rw [runnerLine, List.append_assoc]
  exact List.take_left' (length_runnerText r pass)

/-! ### The band (R134, R135) -/

theorem bandRows_of_idle {s : State} (idle : s.fc.shown = none) : bandRows s = idleRows s := by
  simp only [bandRows, idle]

theorem idleRows_of_open {s : State} {n : Nat} (height : s.bi.bandHeight = n + 1) :
    idleRows s = idleLine0 s :: List.replicate n (cellsOf false (spaces 48)) := by
  simp only [idleRows, height]

theorem bandRows_of_message {s : State} {g : Feature} {m : Fin 8} {msg : Message} (shown : s.fc.shown = some g)
    (ref : g.ref = .message m) (stored : s.fc.messages[m] = some msg) :
    bandRows s = messageRows s.bi.bandHeight msg.lines := by
  simp only [bandRows, shown, ref, FeatureState.messageLines, stored]

theorem bandRows_of_runner {s : State} {g : Feature} {e : FeatureEntry} {r : Record}
    (shown : s.fc.shown = some g) (ref : g.ref = .runner e) (occupied : s.rt.slots[e.slot] = some r) :
    bandRows s = featureRows s.bi.bandHeight r e.kind := by
  simp only [bandRows, shown, ref, RunnerTable.recordOf, occupied, Option.getD_some]

/-- A message's band lines: its own as far as they go, then spaces (R135). -/
theorem messageRows_getElem? {height i : Nat} (lines : List (List Byte)) (hi : i < height) :
    (messageRows height lines)[i]? = some (cellsOf false (lines[i]?.getD (spaces 48))) := by
  rcases Nat.lt_or_ge i lines.length with own | beyond
  · rw [messageRows, List.getElem?_append_left (by simp; omega)]
    simp [hi, own]
  · rw [messageRows, List.getElem?_append_right (by simp; omega), List.getElem?_replicate,
      if_pos (by simp; omega), List.getElem?_eq_none beyond]
    rfl

theorem featureLine0_eq (r : Record) (pass : Option PassNo) (kind : FeatureKind) :
    featureLine0 r kind =
      (runnerLine r pass).take 6 ++ ((List.range 20).map fun i => (r.name.getD []).getD i 0x20#8) ++ spaces 18 ++
        match kind with
        | .leader => leadText
        | .runner => spaces 4 := by
  rw [take_bib_runnerLine, ← leftText_eq]
  cases kind <;> rfl

theorem featureLine1_eq (r : Record) : featureLine1 r = spaces 23 ++ (runnerLine r (bandPass r)).drop 23 := by
  rw [drop_bib_and_name_runnerLine]
  simp only [featureLine1, passText, List.append_assoc]

theorem bandLines : Claims.BandLines := by
  intro s height plain strong gaps
  refine ⟨fun idle => ⟨fun closed => ?_, fun n opened => ?_⟩, fun g m msg shown ref stored => ?_, ?_⟩
  · exact List.eq_nil_of_length_eq_zero ((bandRows_length s).trans closed)
  · exact (bandRows_of_idle idle).trans (idleRows_of_open opened)
  · refine ⟨bandRows_length s, fun i hi => ?_⟩
    rw [bandRows_of_message shown ref stored, messageRows_getElem? _ hi]
    cases msg.lines[i]? <;> rfl
  · intro g e r shown ref occupied pass line leading
    refine ⟨fun single => ?_, fun n several => ?_⟩
    · rw [bandRows_of_runner shown ref occupied, show s.bi.bandHeight = 1 from single, take_text_runnerLine]
      cases e.kind <;> rfl
    · rw [bandRows_of_runner shown ref occupied, show s.bi.bandHeight = n + 2 from several, featureRows,
        featureLine0_eq r pass, featureLine1_eq]
      cases e.kind <;> rfl

/-! ### Lines written (R135, R139, R155) -/

theorem renderIdleClock_of_idle {s : State} (idle : s.fc.shown = none) (band : 1 ≤ s.bi.bandHeight) :
    renderIdleClock s = s.writeLines 0 ((bandRows s).take 1) := by
  rw [renderIdleClock, if_pos ⟨by rw [idle]; rfl, band⟩, bandRows_of_idle idle,
    idleRows_of_open (Nat.succ_pred_eq_of_pos band).symm]
  rfl

theorem renderIdleClock_of_not_idle {s : State} (h : s.fc.shown ≠ none ∨ s.bi.bandHeight = 0) :
    renderIdleClock s = s := by
  refine if_neg fun ⟨idle, band⟩ => h.elim (fun shown => shown (Option.isNone_iff_eq_none.mp idle)) fun closed => ?_
  omega

theorem linesAreWritten : Claims.LinesAreWritten := by
  intro s
  refine ⟨rfl, rfl, fun first rows fits => ?_, ?_, renderIdleClock_of_idle, renderIdleClock_of_not_idle⟩
  · exact ⟨writeLines_onlyImage s first rows, writeRows_length fits, writeRows_getElem? fits⟩
  · refine congrArg (s.writeLines s.bi.bandHeight) (List.map_congr_left fun i _ => ?_)
    rw [ListState.bufferAt, ListState.size, buffers_getD]
    rcases s.ls.buffers[(s.ls.top + i) % s.ls.buffers.length]? with - | - | line <;> rfl

/-! ### Re-renders (R59, R136, R141) -/

theorem isFor_eq (g : Feature) (i : Slot) : g.isFor i = (g.slotOf == some i) := by
  unfold Feature.isFor Feature.slotOf
  cases g.ref <;> rfl

theorem rerenderBand_eq (i : Slot) (s : State) :
    rerenderBand i s = if s.fc.shown.any fun g => g.slotOf == some i then renderBand s else s := by
  unfold rerenderBand
  split
  · rename_i g shown
    rw [shown, isFor_eq]
    rfl
  · rename_i idle
    rw [idle]
    rfl

theorem rerenderLine_of_not_listed {i : Slot} {s : State}
    (h : ∀ line, some line ∈ s.ls.buffers → line.slot ≠ i) : rerenderLine i s = s := by
  unfold rerenderLine
  split
  · rename_i j found
    obtain ⟨line, shows, same⟩ := lineOf_some found
    exact absurd same (h line (List.mem_of_getElem? shows))
  · rfl

/-- The first buffer that shows a slot is the one a re-render finds (R139, R141). -/
theorem lineOf_of_first {l : ListState} {i : Slot} {j : Nat} {line : ListLine}
    (shows : l.buffers[j]? = some (some line)) (same : line.slot = i)
    (first : ∀ n < j, ∀ o, l.buffers[n]? = some (some o) → o.slot ≠ i) : l.lineOf i = some j := by
  obtain ⟨inside, at_j⟩ := List.getElem?_eq_some_iff.mp shows
  rw [ListState.lineOf, List.findIdx?_eq_some_iff_getElem]
  refine ⟨inside, by simp [at_j, same], fun n before => ?_⟩
  rcases h : l.buffers[n] with - | o
  · simp
  · have other := first n before o (by rw [List.getElem?_eq_getElem (before.trans inside), h])
    simpa using other

theorem rerenderLine_of_listed {i : Slot} {j : Nat} {line : ListLine} {s : State}
    (shows : s.ls.buffers[j]? = some (some line)) (found : s.ls.lineOf i = some j) :
    rerenderLine i s = rerenderBuffer j line line.pass s := by
  simp only [rerenderLine, found, buffers_getD, shows, Option.join_some]

theorem rerenderResult : Claims.RerenderResult := by
  intro i s band
  refine ⟨fun unlisted => ?_, fun j line shows same first => ?_⟩
  · rw [rerender, rerenderLine_of_not_listed unlisted]
    exact rerenderBand_eq i s
  · rw [rerender, rerenderLine_of_listed shows (lineOf_of_first shows same first)]
    exact rerenderBand_eq i _

/-- Settles O60: the template, the band by what is shown, the lines a write replaces, the two places of a
re-render. -/
theorem boardLinesAreRendered : Obligations.BoardLinesAreRendered :=
  ⟨runnerLineTemplate, bandLines, linesAreWritten, rerenderResult⟩

end Sys2Proof.Machine
end

section
/-! What a command can do to the runner table, the pass, the band, the list and the board, said once: a relation
with one case for each operation of these blocks, and the proof that every command but the two resets performs
one of them, besides what it does to the other blocks (chapters 4 to 9). -/

namespace Sys2Proof.Machine

/-! ### The blocks -/

/-- The runner table, the recomputation pass, the band, the list and the board. -/
def State.blocks (s : State) : RunnerTable × PassState × FeatureState × ListState × BoardState :=
  (s.rt, s.sa, s.fc, s.ls, s.bi)

theorem blocks_eq_iff {s t : State} :
    t.blocks = s.blocks ↔ t.rt = s.rt ∧ t.sa = s.sa ∧ t.fc = s.fc ∧ t.ls = s.ls ∧ t.bi = s.bi := by
  simp [State.blocks]

theorem OnlyLink.blocks {s t : State} (h : OnlyLink s t) : t.blocks = s.blocks := by
  rw [h]
  rfl

/-! ### The operations -/

/-- A text line of a message: 48 characters a cell may hold (R122, R123). -/
def TextLineSound (line : List Byte) : Prop := line.length = 48 ∧ ∀ c ∈ line, charOk c

/-- Everything a command other than the two resets makes of the five blocks of a state. -/
inductive BlockMove (s : State) : State → Prop
  /-- None of the blocks moves. -/
  | stays : BlockMove s s
  /-- The clock's value has changed (R135, R146). -/
  | clockChanged : BlockMove s (clockValueChanged s)
  /-- The clock's state has changed (R25, R135). -/
  | clockRendered : BlockMove s (renderIdleClock s)
  /-- A wave's entry is stored (R34 to R36). -/
  | waveStored (w : Wave) (entry : WaveEntry) : BlockMove s (storeWave w entry s)
  /-- The pass in flight visits a slot (R100). -/
  | visited (i : Slot) (position : s.sa.position = some i) :
    BlockMove s ((visitSlot i s).withSa { position := nextPosition i })
  /-- A crossing takes its course (R45). -/
  | crossed (reader : Reader) (timed : Bool) {bib : Nat} (x : Nat) {i : Slot} {t : State}
    (bibs : bibOk bib = true) (slot : crossingSlot bib s = some (i, t)) :
    BlockMove s (crossSlot i reader timed x t)
  /-- A bib in the table is filled (R77). -/
  | filled {bib n wave distance time : Nat} {name : List Byte} {f : FillFields} {i : Slot}
    (fields : fillFields n wave distance time name = some f) (found : s.rt.lookup bib = some i) :
    BlockMove s (fillSlot i bib f s)
  /-- A filled record is preloaded (R78). -/
  | preloaded {bib n wave distance time : Nat} {name : List Byte} {f : FillFields} {i : Slot} {t : RunnerTable}
    (bibs : bibOk bib = true) (fields : fillFields n wave distance time name = some f)
    (absent : s.rt.lookup bib = none)
    (slot : s.rt.allocate (derive s.cmu.waves s.ci (applyFill f (Record.fresh bib .filled))) = some (i, t)) :
    BlockMove s (s.withRt t)
  /-- A stale fill is counted (R78). -/
  | staleFilled : BlockMove s (staleFill s)
  /-- Fill requests are sent (R73). -/
  | fetched (n : Nat) : BlockMove s (s.withRt { s.rt with fills := (takeFills s.localTime n s.rt.fills).1 })
  /-- Fill requests time out (R74). -/
  | fillsTimedOut : BlockMove s (s.withRt (timeOutFills s.localTime s.rt))
  /-- A record is pinned (R80). -/
  | pinned (i : Slot) {k : Level} (level : k ≠ 0) (room : s.rt.isPinned i = true ∨ s.rt.pinnedCount < 32) :
    BlockMove s (s.withRt (s.rt.setPin i (some k)))
  /-- An absent bib is pinned in a new record (R80). -/
  | pinnedNew {bib : Nat} {k : Level} {i : Slot} {t : RunnerTable} (bibs : bibOk bib = true) (level : k ≠ 0)
    (absent : s.rt.lookup bib = none) (room : s.rt.pinnedCount < 32)
    (slot : s.rt.allocate { derive s.cmu.waves s.ci (Record.fresh bib .unfilled) with pin := some k } =
      some (i, t)) : BlockMove s (s.withRt t)
  /-- A record is unpinned (R81). -/
  | unpinned (i : Slot) : BlockMove s (s.withRt (s.rt.setPin i none))
  /-- A pass is corrected (R83). -/
  | corrected (i : Slot) (pass : PassNo) (tick : Option Nat) : BlockMove s (correctSlot i pass tick s)
  /-- The table is flushed (R85). -/
  | flushed : BlockMove s (s.withRt s.rt.flush)
  /-- A message is posted (R123). -/
  | messagePosted (m : Fin 8) (k : Level) (duration : Nat) {lines : List (List Byte)}
    (text : ∀ line ∈ lines, TextLineSound line) : BlockMove s (postChecked m k duration lines s)
  /-- A message is deleted (R124). -/
  | messageDeleted (m : Fin 8) : BlockMove s (deleteStored m s)
  /-- The shown feature ends (R130). -/
  | shownEnded : BlockMove s (endAndSelect false s)
  /-- Suspended features end (R130, R131). -/
  | suspendedEnded (gone : Feature → Bool) : BlockMove s (removeSuspended false gone s)
  /-- The feature settings are stored; the mode changes only with no feature on the band (R132, R133). -/
  | featureSetUp (mode : FeatureMode) (mask : BitVec 8) (leaderLevel : Option Level) (dwell : Nat)
    (idle : mode = s.fc.mode ∨ s.fc.shown = none ∧ s.fc.stack = []) :
    BlockMove s (selectOrTest (maskLevels s.fc.mask mask
      (s.withFc { s.fc with mode, mask, leaderLevel, runnerDwell := dwell })))
  /-- The head test is made (R146). -/
  | headTested : BlockMove s (headTest s)
  /-- A buffer that is not the bottom one expires (R149). -/
  | lineExpired (j : Nat) (due : s.ls.expired s.localTime j = true) : BlockMove s (emptyBuffer j s)
  /-- The bottom buffer expires, and the head test is made (R149). -/
  | bottomExpired (j : Nat) (due : s.ls.expired s.localTime j = true) : BlockMove s (headTest (emptyBuffer j s))
  /-- The list settings are stored (R151). -/
  | listTimed (minDwell lineExpiry leadDelay ageLimit : Nat) :
    BlockMove s (listTiming minDwell lineExpiry leadDelay ageLimit s)
  /-- The race is cleared (R172). -/
  | raceCleared : BlockMove s (raceClear s)
  /-- The board's layout changes (R157). -/
  | laidOut {n b : Nat} (w : Wave) (lines : n ≤ 12) (height : b ≤ 4) (fits : b < n) :
    BlockMove s (layoutChecked n b w s)
  /-- A setting of the board or the panel scan moves, and neither layout, image nor windows (R158 to R165). -/
  | boardSet {bi : BoardState} (layout : bi.lineCount = s.bi.lineCount ∧ bi.bandHeight = s.bi.bandHeight)
    (image : bi.image = s.bi.image) (windows : bi.windows = s.bi.windows) : BlockMove s (s.withBi bi)
  /-- A window is defined or becomes unused (R161). -/
  | windowSet (i : Fin 6) {definition : Option Window} (fits : definition.all (windowOk s.bi.lineCount) = true) :
    BlockMove s (s.withBi (setWindow i definition s.bi))

/-- `t` follows from `s` by an operation of the five blocks, besides what happens to the other blocks. -/
def MovesBlocks (s t : State) : Prop :=
  ∃ u v : State, u.blocks = s.blocks ∧ BlockMove u v ∧ t.blocks = v.blocks

theorem BlockMove.moves {s t : State} (move : BlockMove s t) : MovesBlocks s t := ⟨s, t, rfl, move, rfl⟩

theorem movesBlocks_of_blocks {s t : State} (h : t.blocks = s.blocks) : MovesBlocks s t := ⟨s, s, rfl, .stays, h⟩

/-- An operation after a change of other blocks. -/
theorem BlockMove.moves_after {s u t : State} (move : BlockMove u t) (h : u.blocks = s.blocks) : MovesBlocks s t :=
  ⟨u, t, h, move, rfl⟩

theorem movesBlocks_boardSet {s : State} {bi : BoardState}
    (layout : bi.lineCount = s.bi.lineCount ∧ bi.bandHeight = s.bi.bandHeight) (image : bi.image = s.bi.image)
    (windows : bi.windows = s.bi.windows) : MovesBlocks s (s.withBi bi) :=
  (BlockMove.boardSet layout image windows).moves

/-- What a packet makes of the blocks is what its owner block makes of them. -/
theorem receive_movesBlocks {k : Kind} {p : Packet} {owner : Channel → State → Answer} {s t : State}
    (h : receive k p owner s = .next t) (ho : ∀ c, (owner c s).All (MovesBlocks s)) : MovesBlocks s t :=
  receive_all h (movesBlocks_of_blocks rfl) (fun _ _ move => move) ho

/-- An owner block that leaves the blocks alone. -/
theorem receive_keepsBlocks {k : Kind} {p : Packet} {owner : Channel → State → Answer} {s t : State}
    (h : receive k p owner s = .next t) (ho : ∀ c, (owner c s).All fun u => u.blocks = s.blocks) :
    MovesBlocks s t :=
  receive_movesBlocks h fun c => (ho c).imp fun _ => movesBlocks_of_blocks

theorem event_movesBlocks {s t : State} {f : State → State} (h : event s f = .next t)
    (hf : MovesBlocks s (f s)) : MovesBlocks s t := by
  rcases event_cases h with ⟨-, rfl⟩ | ⟨-, rfl⟩
  · exact movesBlocks_of_blocks rfl
  · exact hf

/-! ### Clock, marks and waves -/

theorem clockSet_movesBlocks (tick : Nat) (s : State) : (clockSet tick s).All (MovesBlocks s) := by
  unfold clockSet
  split
  · exact movesBlocks_of_blocks rfl
  · split
    · exact movesBlocks_of_blocks rfl
    · exact BlockMove.clockChanged.moves_after rfl

theorem clockStop_movesBlocks (s : State) : MovesBlocks s (clockStop s) := by
  unfold clockStop
  split
  · exact movesBlocks_of_blocks rfl
  · exact BlockMove.clockRendered.moves_after rfl
  · exact BlockMove.clockRendered.moves_after rfl

theorem clockTrim_movesBlocks (amount : Int) (s : State) : (clockTrim amount s).All (MovesBlocks s) := by
  unfold clockTrim
  split
  · dsimp only
    split
    · exact movesBlocks_of_blocks rfl
    · exact BlockMove.clockChanged.moves_after rfl
  · exact movesBlocks_of_blocks rfl
  · exact movesBlocks_of_blocks rfl

theorem markPulse_blocks (r : Reader) (s : State) : (markPulse r s).blocks = s.blocks := by
  unfold markPulse captureMark
  dsimp only
  repeat' split
  all_goals rfl

theorem waveSet_movesBlocks (wave rangeCode first last gunCode tick : Nat) (s : State) :
    (waveSet wave rangeCode first last gunCode tick s).All (MovesBlocks s) := by
  unfold waveSet
  split
  · exact movesBlocks_of_blocks rfl
  · split
    · exact movesBlocks_of_blocks rfl
    · split
      · exact movesBlocks_of_blocks rfl
      · split
        · exact movesBlocks_of_blocks rfl
        · exact (BlockMove.waveStored _ _).moves

theorem gunClear_movesBlocks (wave : Nat) (s : State) : (gunClear wave s).All (MovesBlocks s) := by
  unfold gunClear
  split
  · exact movesBlocks_of_blocks rfl
  · exact (BlockMove.waveStored _ _).moves

/-! ### Crossings (chapter 3) -/

theorem crossing_movesBlocks (reader : Reader) (timed : Bool) (bib x : Nat) (s : State) :
    (crossing reader timed bib x s).All (MovesBlocks s) := by
  unfold crossing
  split
  · rename_i bibs
    split
    · rename_i slot
      exact (BlockMove.crossed reader timed x bibs slot).moves
    · trivial
  · exact movesBlocks_of_blocks rfl

theorem crossingReport_movesBlocks (c : Channel) (bib number : Nat) (s : State) :
    (match readerOf c with
      | some r => crossingReport r bib number s
      | none => Answer.refused .notPermitted s).All (MovesBlocks s) := by
  split
  · unfold crossingReport
    split
    · exact movesBlocks_of_blocks rfl
    · exact crossing_movesBlocks _ _ _ _ _
  · exact movesBlocks_of_blocks rfl

theorem timedCrossingReport_movesBlocks (c : Channel) (bib x : Nat) (s : State) :
    (match readerOf c with
      | some r => timedCrossingReport r bib x s
      | none => Answer.refused .notPermitted s).All (MovesBlocks s) := by
  split
  · unfold timedCrossingReport
    split
    · exact movesBlocks_of_blocks rfl
    · split
      · exact movesBlocks_of_blocks rfl
      · exact crossing_movesBlocks _ _ _ _ _
  · exact movesBlocks_of_blocks rfl

/-! ### The runner table (chapter 4) -/

theorem rosterFill_movesBlocks (bib : Nat) (flag : Bool) (n wave distance time : Nat) (name : List Byte)
    (s : State) : (rosterFill bib flag n wave distance time name s).All (MovesBlocks s) := by
  unfold rosterFill
  split
  · exact movesBlocks_of_blocks rfl
  · rename_i bibs
    split
    · exact movesBlocks_of_blocks rfl
    · rename_i f fields
      split
      · rename_i found
        exact (BlockMove.filled fields found).moves
      · rename_i absent
        split
        · unfold preload
          split
          · rename_i slot
            exact (BlockMove.preloaded (by simpa using bibs) fields absent slot).moves
          · trivial
        · exact BlockMove.staleFilled.moves

theorem pinBib_movesBlocks (bib level : Nat) (s : State) : (pinBib bib level s).All (MovesBlocks s) := by
  unfold pinBib
  split
  · exact movesBlocks_of_blocks rfl
  · rename_i bibs
    split
    · exact movesBlocks_of_blocks rfl
    · rename_i k _
      split
      · exact movesBlocks_of_blocks rfl
      · rename_i positive
        split
        · rename_i i _
          split
          · rename_i room
            exact (BlockMove.pinned i positive room).moves
          · exact movesBlocks_of_blocks rfl
        · rename_i absent
          split
          · rename_i room
            unfold pinAbsent
            split
            · rename_i slot
              exact (BlockMove.pinnedNew (by simpa using bibs) positive absent room slot).moves
            · trivial
          · exact movesBlocks_of_blocks rfl

theorem readSlot_blocks (c : Channel) (i : Slot) (s : State) :
    (readSlot c i s).All fun u => u.blocks = s.blocks := by
  unfold readSlot
  split <;> rfl

theorem correctPass_movesBlocks (bib code : Nat) (tick : Option Nat) (s : State) :
    (correctPass bib code tick s).All (MovesBlocks s) := by
  unfold correctPass
  split
  · exact movesBlocks_of_blocks rfl
  · split
    · exact movesBlocks_of_blocks rfl
    · split
      · exact withBib_all (movesBlocks_of_blocks rfl) fun i => (BlockMove.corrected i _ tick).moves
      · exact movesBlocks_of_blocks rfl

/-! ### The band (chapter 7) -/

/-- A received character is kept only where a cell may hold it (R63, R123). -/
theorem keepChar_ok {last : Byte} (h : last ≤ 0x7F#8) (c : Byte) : charOk (keepChar last c) := by
  unfold keepChar
  split
  · rename_i kept
    exact ⟨kept.1, BitVec.le_trans kept.2 h⟩
  · exact ⟨by decide, by decide⟩

/-- The lines cut from a text that is long enough are text lines (R123). -/
theorem linesOf_sound {k : Nat} {text : List Byte} (h : 48 * k ≤ text.length) :
    ∀ line ∈ linesOf k text, TextLineSound line := by
  induction k generalizing text with
  | zero => exact fun _ mem => nomatch mem
  | succ k ih =>
    intro line mem
    rcases List.mem_cons.mp mem with rfl | mem
    · refine ⟨by simp; omega, fun c hc => ?_⟩
      obtain ⟨b, -, rfl⟩ := List.mem_map.mp hc
      exact keepChar_ok (by decide) b
    · exact ih (by simp; omega) line mem

/-- A delivered Post Message carries 48 characters for each of its lines (R7, R123). -/
theorem postMessage_length {c : Channel} {p : Packet} {s : State} (h : Delivered .postMessage c p s) :
    (payloadOf p).length = 5 + 48 * byteAt (payloadOf p) 4 := by
  obtain ⟨-, -, room⟩ := h
  have form : formOk .postMessage p.body = true := by
    unfold requestRefusal at room
    split at room
    · cases room
    · rename_i h
      simpa using h
  unfold formOk at form
  split at form
  · exact absurd form (by decide)
  · rename_i payload _ hp
    have length : kindLength .postMessage payload = some payload.length := eq_of_beq form
    rw [payloadOf, hp]
    exact (Option.some.inj length).symm

theorem postMessage_movesBlocks {message level duration lineCount : Nat} {text : List Byte} (s : State)
    (h : 48 * lineCount ≤ text.length) :
    (postMessage message level duration lineCount text s).All (MovesBlocks s) := by
  unfold postMessage
  split
  · split
    · exact (BlockMove.messagePosted _ _ _ (linesOf_sound h)).moves
    · exact movesBlocks_of_blocks rfl
  · exact movesBlocks_of_blocks rfl
  · exact movesBlocks_of_blocks rfl

theorem execPostMessage_movesBlocks {p : Packet} {s t : State} (h : execPostMessage p s = .next t) :
    MovesBlocks s t := by
  rcases receive_cases h with ⟨-, rfl⟩ | ⟨c, e, -, -, rfl⟩ | ⟨c, r, -, -, -, rfl⟩ | ⟨c, delivered, answer⟩
  · exact movesBlocks_of_blocks rfl
  · rw [packetErrorEffect_onlyLink]
    exact movesBlocks_of_blocks rfl
  · exact movesBlocks_of_blocks rfl
  · have moves := postMessage_movesBlocks (message := byteAt (payloadOf p) 0) (level := byteAt (payloadOf p) 1)
      (duration := halfAt (payloadOf p) 2) (lineCount := byteAt (payloadOf p) 4)
      (text := (payloadOf p).drop 5) s (by simp [postMessage_length delivered])
    rcases answer with answer | ⟨r, u, answer, rfl⟩
    · rwa [show postMessage _ _ _ _ _ s = _ from answer] at moves
    · rwa [show postMessage _ _ _ _ _ s = _ from answer] at moves

theorem deleteMessage_movesBlocks (message : Nat) (s : State) :
    (deleteMessage message s).All (MovesBlocks s) := by
  unfold deleteMessage
  split
  · exact (BlockMove.messageDeleted _).moves
  · exact movesBlocks_of_blocks rfl

theorem endFeature_movesBlocks (code : Nat) (s : State) : (endFeature code s).All (MovesBlocks s) := by
  unfold endFeature
  split
  · show MovesBlocks s _
    split
    · exact BlockMove.shownEnded.moves
    · exact movesBlocks_of_blocks rfl
  · split
    · unfold endLevel
      split
      · exact BlockMove.shownEnded.moves
      · split
        · exact (BlockMove.suspendedEnded _).moves
        · exact movesBlocks_of_blocks rfl
    · exact movesBlocks_of_blocks rfl

theorem featureSetup_movesBlocks (modeCode : Nat) (mask : BitVec 8) (leaderCode dwell : Nat) (s : State) :
    (featureSetup modeCode mask leaderCode dwell s).All (MovesBlocks s) := by
  unfold featureSetup
  split
  · rename_i mode leaderLevel _ _
    split
    · exact movesBlocks_of_blocks rfl
    · rename_i busy
      refine (BlockMove.featureSetUp mode mask leaderLevel _ ?_).moves
      by_cases same : mode = s.fc.mode
      · exact .inl same
      · exact .inr (by simpa [same] using busy)
  · exact movesBlocks_of_blocks rfl
  · exact movesBlocks_of_blocks rfl

/-! ### List and board (chapters 8 and 9) -/

theorem boardLayout_movesBlocks (n b wave : Nat) (s : State) : (boardLayout n b wave s).All (MovesBlocks s) := by
  unfold boardLayout
  split
  · rename_i range
    obtain ⟨-, lines, height, fits⟩ := range
    split
    · split
      · exact movesBlocks_of_blocks rfl
      · exact (BlockMove.laidOut _ lines height fits).moves
    · exact movesBlocks_of_blocks rfl
  · exact movesBlocks_of_blocks rfl

theorem displayMode_movesBlocks (code : Nat) (s : State) : (displayMode code s).All (MovesBlocks s) := by
  unfold displayMode
  split
  · exact movesBlocks_boardSet ⟨rfl, rfl⟩ rfl rfl
  · exact movesBlocks_of_blocks rfl

theorem dutyTable_movesBlocks (entries : Vector Byte 16) (s : State) :
    (dutyTable entries s).All (MovesBlocks s) := by
  unfold dutyTable
  split
  · exact movesBlocks_boardSet ⟨rfl, rfl⟩ rfl rfl
  · exact movesBlocks_of_blocks rfl

theorem panelWindow_movesBlocks (number : Nat) (definition : Option Window) (s : State) :
    (panelWindow number definition s).All (MovesBlocks s) := by
  unfold panelWindow
  split
  · exact movesBlocks_of_blocks rfl
  · split
    · rename_i fits
      exact (BlockMove.windowSet _ fits).moves
    · exact movesBlocks_of_blocks rfl

/-- Building a frame moves the frame being sent alone (R164). -/
theorem buildFrom_eq (start : Nat) (b : BoardState) :
    buildFrom start b = { b with sending := (buildFrom start b).sending } := by
  unfold buildFrom
  dsimp only
  split <;> rfl

theorem buildFrom_movesBlocks (start scanFrom : Nat) (s : State) :
    MovesBlocks s (s.withBi (buildFrom start { s.bi with scanFrom })) := by
  rw [buildFrom_eq]
  exact movesBlocks_boardSet ⟨rfl, rfl⟩ rfl rfl

theorem readLines_blocks (first count : Nat) (c : Channel) (s : State) :
    (readLines first count c s).All fun u => u.blocks = s.blocks := by
  unfold readLines
  split <;> rfl

/-! ### The other blocks -/

theorem pointSetup_blocks (l d1 d2 g w : Nat) (s : State) :
    (pointSetup l d1 d2 g w s).All fun u => u.blocks = s.blocks := by
  unfold pointSetup
  repeat' split
  all_goals rfl

theorem releaseEntries_blocks (n : Half) (s : State) :
    (releaseEntries n s).All fun u => u.blocks = s.blocks := by
  unfold releaseEntries
  split <;> rfl

theorem arbitrationSetup_blocks (modeCode parkCode : Nat) (s : State) :
    (arbitrationSetup modeCode parkCode s).All fun u => u.blocks = s.blocks := by
  unfold arbitrationSetup
  split <;> rfl

theorem putHold_blocks (c : Channel) (s : State) : (putHold c s).blocks = s.blocks := by
  unfold putHold
  split <;> rfl

/-! ### Every command -/

/-- Every command but the two resets moves the five blocks by one of the operations above. -/
theorem exec_movesBlocks {i : Instr} {s t : State} (h : exec i s = .next t) (hp : i ≠ .powerOn)
    (hr : i ≠ .resetAsserted) : MovesBlocks s t := by
  unfold exec at h
  cases i with
  | powerOn => exact absurd rfl hp
  | resetAsserted => exact absurd rfl hr
  | openPattern => exact movesBlocks_of_blocks (execOpenPattern_onlyLink h).blocks
  | normalClose tail => exact movesBlocks_of_blocks (execNormalClose_onlyLink h).blocks
  | turnClose tail => exact movesBlocks_of_blocks (execTurnClose_onlyLink h).blocks
  | replyBurstEnd => exact movesBlocks_of_blocks (execReplyBurstEnd_onlyLink h).blocks
  | cut tail => exact movesBlocks_of_blocks (execCut_onlyLink h).blocks
  | headerBad header => exact movesBlocks_of_blocks (execHeaderBad_onlyLink h).blocks
  | unknownKind kind p => exact movesBlocks_of_blocks (execUnknownKind_onlyLink h).blocks
  | requestRaised c => exact movesBlocks_of_blocks (execRequestRaised_onlyLink h).blocks
  | requestDropped c => exact movesBlocks_of_blocks (execRequestDropped_onlyLink h).blocks
  | busyRelease => exact movesBlocks_of_blocks (execBusyRelease_onlyLink h).blocks
  | offerTimerExpiry => exact movesBlocks_of_blocks (execOfferTimerExpiry_onlyLink h).blocks
  | tenureReached => exact movesBlocks_of_blocks (execTenureReached_onlyLink h).blocks
  | withdrawalGraceEnd => exact movesBlocks_of_blocks (execWithdrawalGraceEnd_onlyLink h).blocks
  | holdLimit => exact movesBlocks_of_blocks (execHoldLimit_onlyLink h).blocks
  | crossingReport p => exact receive_movesBlocks h (fun c => crossingReport_movesBlocks c _ _ s)
  | timedCrossingReport p => exact receive_movesBlocks h (fun c => timedCrossingReport_movesBlocks c _ _ s)
  | clockSet p => exact receive_movesBlocks h (fun _ => clockSet_movesBlocks _ s)
  | clockStop p => exact receive_movesBlocks h (fun _ => clockStop_movesBlocks s)
  | clockTrim p => exact receive_movesBlocks h (fun _ => clockTrim_movesBlocks _ s)
  | clockAdvance =>
    refine event_movesBlocks h ?_
    split
    · split
      · exact BlockMove.clockChanged.moves_after rfl
      · exact movesBlocks_of_blocks rfl
    all_goals exact movesBlocks_of_blocks rfl
  | markPulse r => exact event_movesBlocks h (movesBlocks_of_blocks (markPulse_blocks r s))
  | markExpiry r n =>
    refine event_movesBlocks h (movesBlocks_of_blocks ?_)
    dsimp only
    split <;> rfl
  | waveSet p => exact receive_movesBlocks h (fun _ => waveSet_movesBlocks _ _ _ _ _ _ s)
  | gunClear p => exact receive_movesBlocks h (fun _ => gunClear_movesBlocks _ s)
  | passVisit =>
    refine event_movesBlocks h ?_
    split
    · rename_i i position
      exact (BlockMove.visited i position).moves
    · exact movesBlocks_of_blocks rfl
  | pointSetup p => exact receive_keepsBlocks h (fun _ => pointSetup_blocks _ _ _ _ _ s)
  | rosterFill p => exact receive_movesBlocks h (fun _ => rosterFill_movesBlocks _ _ _ _ _ _ _ s)
  | fetchFills p => exact receive_movesBlocks h (fun c => ⟨s, _, rfl, .fetched (clamp 1 8 (paramOf p)), rfl⟩)
  | fillTimeout => exact event_movesBlocks h BlockMove.fillsTimedOut.moves
  | pin p => exact receive_movesBlocks h (fun _ => pinBib_movesBlocks _ _ s)
  | unpin p =>
    exact receive_movesBlocks h (fun _ =>
      withBib_all (movesBlocks_of_blocks rfl) fun i => (BlockMove.unpinned i).moves)
  | readRecord p => exact receive_keepsBlocks h (fun c => withBib_all rfl fun i => readSlot_blocks c i s)
  | correctPass p => exact receive_movesBlocks h (fun _ => correctPass_movesBlocks _ _ _ s)
  | tableFlush p => exact receive_movesBlocks h (fun _ => BlockMove.flushed.moves)
  | collect p => exact receive_keepsBlocks h (fun _ => rfl)
  | release p => exact receive_keepsBlocks h (fun _ => releaseEntries_blocks _ s)
  | postMessage p => exact execPostMessage_movesBlocks h
  | deleteMessage p => exact receive_movesBlocks h (fun _ => deleteMessage_movesBlocks _ s)
  | endFeature p => exact receive_movesBlocks h (fun _ => endFeature_movesBlocks _ s)
  | featureSetup p => exact receive_movesBlocks h (fun _ => featureSetup_movesBlocks _ _ _ _ s)
  | dwellExpiry =>
    refine event_movesBlocks h ?_
    split
    · exact BlockMove.shownEnded.moves
    · exact movesBlocks_of_blocks rfl
  | minDwellReached =>
    refine event_movesBlocks h ?_
    split
    · exact BlockMove.headTested.moves
    · exact movesBlocks_of_blocks rfl
  | lineExpiry j =>
    refine event_movesBlocks h ?_
    dsimp only
    split
    · rename_i due
      split
      · exact (BlockMove.bottomExpired _ due).moves
      · exact (BlockMove.lineExpired _ due).moves
    · exact movesBlocks_of_blocks rfl
  | listTiming p => exact receive_movesBlocks h (fun _ => (BlockMove.listTimed _ _ _ _).moves)
  | raceClear p => exact receive_movesBlocks h (fun _ => BlockMove.raceCleared.moves)
  | boardLayout p => exact receive_movesBlocks h (fun _ => boardLayout_movesBlocks _ _ _ s)
  | displayMode p => exact receive_movesBlocks h (fun _ => displayMode_movesBlocks _ s)
  | brightness p => exact receive_movesBlocks h (fun _ => movesBlocks_boardSet ⟨rfl, rfl⟩ rfl rfl)
  | dutyTable p => exact receive_movesBlocks h (fun _ => dutyTable_movesBlocks _ s)
  | panelWindow p => exact receive_movesBlocks h (fun _ => panelWindow_movesBlocks _ _ s)
  | scanPeriod p => exact receive_movesBlocks h (fun _ => movesBlocks_boardSet ⟨rfl, rfl⟩ rfl rfl)
  | scanStart =>
    refine event_movesBlocks h ?_
    split
    · exact buildFrom_movesBlocks _ _ s
    · exact movesBlocks_of_blocks rfl
  | frameSent =>
    refine event_movesBlocks h ?_
    split
    · exact buildFrom_movesBlocks _ s.bi.scanFrom s
    · exact movesBlocks_of_blocks rfl
  | readLines p => exact receive_keepsBlocks h (fun c => readLines_blocks _ _ c s)
  | arbitrationSetup p => exact receive_keepsBlocks h (fun _ => arbitrationSetup_blocks _ _ s)
  | status p => exact receive_keepsBlocks h (fun _ => rfl)
  | attentionMask p => exact receive_keepsBlocks h (fun _ => rfl)
  | channelReset p => exact receive_keepsBlocks h (fun _ => rfl)
  | hold p => exact receive_keepsBlocks h (fun c => putHold_blocks c s)
  | releaseHold p => exact receive_keepsBlocks h (fun _ => rfl)

end Sys2Proof.Machine
end

section
/-! What the operations of the runner table do to slots, recency order and fill requests, one lemma for each
(chapter 4). -/

namespace Sys2Proof.Machine

/-! ### Slots -/

/-- A slot after a put holds the record put there, or what it held. -/
theorem put_slots_cases {t : RunnerTable} {i j : Slot} {r q : Record} (h : (t.put i r).slots[j] = some q) :
    (j = i ∧ q = r) ∨ (j ≠ i ∧ t.slots[j] = some q) := by
  by_cases same : j = i
  · subst same
    rw [RunnerTable.put_slots_self] at h
    exact .inl ⟨rfl, (Option.some.inj h).symm⟩
  · rw [RunnerTable.put_slots_ne t r same] at h
    exact .inr ⟨same, h⟩

/-- The second of two records put in a slot stands. -/
theorem put_put (t : RunnerTable) (i : Slot) (r q : Record) : (t.put i r).put i q = t.put i q := by
  simp [RunnerTable.put]

theorem setPin_of_occupied {t : RunnerTable} {i : Slot} {r : Record} (pin : Option Level)
    (h : t.slots[i] = some r) : t.setPin i pin = t.put i { r with pin } := by
  simp only [RunnerTable.setPin, h]

theorem setPin_of_free {t : RunnerTable} {i : Slot} (pin : Option Level) (h : t.slots[i] = none) :
    t.setPin i pin = t := by
  simp only [RunnerTable.setPin, h]

theorem isPinned_of_occupied {t : RunnerTable} {i : Slot} {r : Record} (h : t.slots[i] = some r) :
    t.isPinned i = r.pin.isSome := by
  simp only [RunnerTable.isPinned, h]

/-- A slot moved to the front leaves the others in their order (R65). -/
theorem toFront_perm {t : RunnerTable} {i : Slot} (h : i ∈ t.order) : (t.toFront i).order.Perm t.order :=
  (List.perm_cons_erase h).symm

/-! ### Allocation (R68 to R70) -/

theorem allocate_slots_ne {t u : RunnerTable} {r : Record} {i j : Slot} (h : t.allocate r = some (i, u))
    (other : j ≠ i) : u.slots[j] = t.slots[j] := by
  obtain ⟨-, rfl⟩ := allocate_some h
  exact (RunnerTable.put_slots_ne _ r other).trans (evict_slots_ne t other)

theorem allocate_holds {t u : RunnerTable} {r : Record} {i : Slot} (h : t.allocate r = some (i, u)) :
    u.holds = t.holds := by
  obtain ⟨-, rfl⟩ := allocate_some h
  rw [RunnerTable.evict_eq]
  rfl

theorem allocate_fills {t u : RunnerTable} {r : Record} {i : Slot} (h : t.allocate r = some (i, u)) :
    u.fills = t.fills.filter fun e => (t.slots[i].map fun r => r.bib) ≠ some e.bib := by
  obtain ⟨-, rfl⟩ := allocate_some h
  rw [RunnerTable.evict_eq]
  rfl

theorem allocate_order {t u : RunnerTable} {r : Record} {i : Slot} (h : t.allocate r = some (i, u)) :
    u.order = i :: t.order.erase i := by
  obtain ⟨-, rfl⟩ := allocate_some h
  rw [RunnerTable.evict_eq]
  rfl

theorem allocate_victim {t u : RunnerTable} {r : Record} {i : Slot} (h : t.allocate r = some (i, u)) :
    i ∈ t.order ∧ t.isPinned i = false ∧ t.holds[i] = 0 := by
  obtain ⟨member, unpinned, free⟩ := victim_some (allocate_some h).1
  exact ⟨member, unpinned, (isHeld_eq_false_iff t i).mp free⟩

/-- An allocation for another record differs in the record alone. -/
theorem allocate_put {t u : RunnerTable} {r : Record} {i : Slot} (q : Record) (h : t.allocate r = some (i, u)) :
    t.allocate q = some (i, u.put i q) := by
  obtain ⟨victim, rfl⟩ := allocate_some h
  rw [allocate_of_victim q victim]
  exact congrArg (fun v => some (i, RunnerTable.toFront v i)) (put_put (t.evict i) i r q).symm

/-! ### Fetch Fills (R73) -/

/-- An entry sent once more at local time `now` (R73). -/
def FillRequest.sentAgain (now : Nat) (e : FillRequest) : FillRequest :=
  { e with sent := true, offers := e.offers + 1, sentAt := some now }

/-- The entry at place `k` is taken when it is WAITING and fewer than `n` WAITING entries stand before it. -/
theorem takeFills_getElem? (now n : Nat) (l : List FillRequest) (k : Nat) :
    (takeFills now n l).1[k]? = l[k]?.map fun e =>
      if e.sent = false ∧ ((l.take k).filter fun d => !d.sent).length < n then e.sentAgain now else e := by
  induction l generalizing n k with
  | nil => simp [takeFills]
  | cons d l ih =>
    unfold takeFills
    cases k with
    | zero => cases hd : d.sent <;> by_cases hn : n = 0 <;> simp [hd, hn, FillRequest.sentAgain, Nat.pos_iff_ne_zero]
    | succ k =>
      split
      · rename_i skipped
        simp only [List.getElem?_cons_succ, ih, List.take_succ_cons]
        rcases skipped with sent | rfl
        · simp [sent]
        · simp
      · rename_i taken
        obtain ⟨waiting, positive⟩ := not_or.mp taken
        simp only [List.getElem?_cons_succ, ih, List.take_succ_cons]
        simp only [Bool.not_eq_true] at waiting
        simp only [waiting, Bool.not_false, List.filter_cons_of_pos, List.length_cons]
        refine congrFun (congrArg _ (funext fun e => if_congr (and_congr_right fun _ => ?_) rfl rfl)) _
        omega

/-- What is taken: of the WAITING entries the first `n`, each with one more offer (R73). -/
theorem takeFills_taken (now n : Nat) (l : List FillRequest) :
    (takeFills now n l).2 = ((l.filter fun e => !e.sent).take n).map fun e => (e.bib, e.offers + 1) := by
  induction l generalizing n with
  | nil => simp [takeFills]
  | cons d l ih =>
    unfold takeFills
    split
    · rename_i skipped
      rcases skipped with sent | rfl
      · simp [sent, ih]
      · simp [ih]
    · rename_i taken
      obtain ⟨waiting, positive⟩ := not_or.mp taken
      obtain ⟨n, rfl⟩ := Nat.exists_eq_succ_of_ne_zero positive
      simp only [Bool.not_eq_true] at waiting
      simp [waiting, ih]

/-- The WAITING entries left are those beyond the first `n` (R73). -/
theorem takeFills_waiting (now n : Nat) (l : List FillRequest) :
    (takeFills now n l).1.filter (fun e => !e.sent) = (l.filter fun e => !e.sent).drop n := by
  induction l generalizing n with
  | nil => simp [takeFills]
  | cons d l ih =>
    unfold takeFills
    split
    · rename_i skipped
      rcases skipped with sent | rfl
      · simp [sent, ih]
      · cases hd : d.sent <;> simp [hd, ih]
    · rename_i taken
      obtain ⟨waiting, positive⟩ := not_or.mp taken
      obtain ⟨n, rfl⟩ := Nat.exists_eq_succ_of_ne_zero positive
      simp only [Bool.not_eq_true] at waiting
      simp [waiting, ih]

theorem takeFills_length (now n : Nat) (l : List FillRequest) : (takeFills now n l).1.length = l.length := by
  induction l generalizing n with
  | nil => rfl
  | cons d l ih =>
    unfold takeFills
    split <;> simp [ih]

/-- An entry after a fetch is one from before, as it was or, if it was WAITING, sent once more. -/
theorem mem_takeFills {now n : Nat} {l : List FillRequest} {e : FillRequest} (h : e ∈ (takeFills now n l).1) :
    ∃ d ∈ l, e = d ∨ (d.sent = false ∧ e = d.sentAgain now) := by
  obtain ⟨k, hk⟩ := List.mem_iff_getElem?.mp h
  rw [takeFills_getElem?] at hk
  obtain ⟨d, hd, rfl⟩ := Option.map_eq_some_iff.mp hk
  refine ⟨d, List.mem_of_getElem? hd, ?_⟩
  split
  · rename_i taken
    exact .inr ⟨taken.1, rfl⟩
  · exact .inl rfl

theorem takeFills_bibs (now n : Nat) (l : List FillRequest) :
    ((takeFills now n l).1.map fun e => e.bib) = l.map fun e => e.bib := by
  refine List.ext_getElem? fun k => ?_
  rw [List.getElem?_map, List.getElem?_map, takeFills_getElem?, Option.map_map]
  refine congrFun (congrArg _ (funext fun e => ?_)) _
  simp only [Function.comp_apply]
  split <;> rfl

/-! ### Fill timeouts (R74) -/

theorem fillExpired_iff (now : Nat) (e : FillRequest) :
    fillExpired now e = true ↔ e.sent = true ∧ ∃ t ∈ e.sentAt, t + 30000 ≤ now := by
  unfold fillExpired
  split
  · rename_i t ht
    simp [ht]
  · rename_i ht
    simp [ht]

theorem fillGivenUp_iff (now : Nat) (e : FillRequest) :
    fillGivenUp now e = true ↔ fillExpired now e = true ∧ 3 ≤ e.offers := by
  simp [fillGivenUp]

/-- The record of a slot whose fill request is given up (R74). -/
def Record.unfilled (r : Record) : Record := { r with fill := .unfilled }

/-- A given-up entry changes the slots alone. -/
theorem unfillSlot_eq (t : RunnerTable) (e : FillRequest) :
    unfillSlot t e = { t with slots := (unfillSlot t e).slots } := by
  unfold unfillSlot
  split <;> rfl

theorem unfillSlot_slots (t : RunnerTable) (e : FillRequest) (i : Slot) :
    (unfillSlot t e).slots[i] = if e.slot = i then t.slots[i].map Record.unfilled else t.slots[i] := by
  unfold unfillSlot
  by_cases same : e.slot = i
  · subst same
    split
    · rename_i r hr
      rw [RunnerTable.put_slots_self, if_pos rfl, hr]
      rfl
    · rename_i hr
      rw [if_pos rfl, hr]
      rfl
  · rw [if_neg same]
    split
    · exact RunnerTable.put_slots_ne t _ fun h => same h.symm
    · rfl

theorem foldl_unfillSlot_eq (l : List FillRequest) (t : RunnerTable) :
    l.foldl unfillSlot t = { t with slots := (l.foldl unfillSlot t).slots } := by
  induction l generalizing t with
  | nil => rfl
  | cons e l ih =>
    rw [List.foldl_cons, ih, unfillSlot_eq]

theorem foldl_unfillSlot_slots (l : List FillRequest) (t : RunnerTable) (i : Slot) :
    (l.foldl unfillSlot t).slots[i] =
      if l.any fun e => e.slot == i then t.slots[i].map Record.unfilled else t.slots[i] := by
  induction l generalizing t with
  | nil => rfl
  | cons e l ih =>
    rw [List.foldl_cons, ih, unfillSlot_slots]
    have twice : Record.unfilled ∘ Record.unfilled = Record.unfilled := rfl
    by_cases here : e.slot = i <;> by_cases later : (l.any fun e => e.slot == i) = true <;>
      simp [here, later, twice]

/-- A timeout changes slots and fill requests alone. -/
theorem timeOutFills_eq (now : Nat) (t : RunnerTable) :
    timeOutFills now t =
      { t with
        slots := (timeOutFills now t).slots
        fills := (t.fills.filter fun e => !fillGivenUp now e).map (timedOutEntry now) } := by
  simp only [timeOutFills]
  rw [foldl_unfillSlot_eq]

/-- The slots named by given-up entries become UNFILLED, the others stay (R74). -/
theorem timeOutFills_slots (now : Nat) (t : RunnerTable) (i : Slot) :
    (timeOutFills now t).slots[i] =
      if t.fills.any fun e => fillGivenUp now e && e.slot == i then t.slots[i].map Record.unfilled
      else t.slots[i] := by
  simp only [timeOutFills, foldl_unfillSlot_slots, List.any_filter]

/-! ### Table Flush (R85) -/

theorem kept_eq (t : RunnerTable) (i : Slot) : t.kept i = (t.isPinned i || decide (0 < t.holds[i])) := rfl

theorem flush_slots (t : RunnerTable) (i : Slot) : t.flush.slots[i] = if t.kept i then t.slots[i] else none := by
  simp [RunnerTable.flush]

end Sys2Proof.Machine
end

section
/-! The recency order, the bibs, pins and fill requests of the runner table and its STALE marks are sound at every
step (R62, R65, R67, R71, R98): each operation of the table keeps them, and every operation of the five blocks is
made of such, besides what it does to the hold counts. -/

namespace Sys2Proof.Machine

/-! ### The operations of the table -/

/-- A name a cell may hold, character by character (R63). -/
def NameSound (r : Record) : Prop := ∀ name ∈ r.name, ∀ c ∈ name, charOk c

/-- A record that may enter the table: its bib is one and in no slot, and it is not STALE (R62, R70). -/
structure Enters (t : RunnerTable) (r : Record) : Prop where
  absent : t.lookup r.bib = none
  bibs : bibOk r.bib = true
  fresh : r.stale = false
  name : NameSound r

/-- The operations of the runner table and the recomputation pass, on the table and the pass. -/
inductive TableStep : RunnerTable × PassState → RunnerTable × PassState → Prop
  /-- A record changes, and neither its bib nor its pin, fill state or name; it does not become STALE. -/
  | recorded {t : RunnerTable} {x : PassState} {i : Slot} {r q : Record} (occupied : t.slots[i] = some r)
    (bib : q.bib = r.bib) (pin : q.pin = r.pin) (fill : q.fill = r.fill) (name : q.name = r.name)
    (stale : q.stale = true → r.stale = true) : TableStep (t, x) (t.put i q, x)
  /-- A slot moves to the front of the recency order (R65). -/
  | recent (t : RunnerTable) (x : PassState) (i : Slot) : TableStep (t, x) (t.toFront i, x)
  /-- A record is filled, and its fill request leaves the list (R77). -/
  | filled {t : RunnerTable} {x : PassState} {i : Slot} {r q : Record} (occupied : t.slots[i] = some r)
    (bib : q.bib = r.bib) (pin : q.pin = r.pin) (fill : q.fill = .filled) (name : NameSound r → NameSound q)
    (fresh : q.stale = false) : TableStep (t, x) ((t.withdraw r.bib).put i q, x)
  /-- A new record that is not NEW takes a victim's slot (R70, R78, R80). -/
  | allocated {t u : RunnerTable} {x : PassState} {i : Slot} {r : Record} (enters : Enters t r)
    (slot : t.allocate r = some (i, u)) (fill : r.fill ≠ .new)
    (pin : ∀ k ∈ r.pin, k ≠ 0 ∧ t.pinnedCount < 32) : TableStep (t, x) (u, x)
  /-- A NEW record takes a victim's slot, with a fill request (R49, R72). -/
  | requested {t u : RunnerTable} {x : PassState} {i : Slot} {r : Record} (enters : Enters t r)
    (slot : t.allocate r = some (i, u)) (fill : r.fill = .new) (unpinned : r.pin = none)
    (room : u.fills.length < 32) : TableStep (t, x) (u.enterFill r.bib i, x)
  /-- Fill requests are sent (R73). -/
  | fetched (t : RunnerTable) (x : PassState) (now n : Nat) :
    TableStep (t, x) ({ t with fills := (takeFills now n t.fills).1 }, x)
  /-- Fill requests time out (R74). -/
  | timedOut (t : RunnerTable) (x : PassState) (now : Nat) : TableStep (t, x) (timeOutFills now t, x)
  /-- A record's pin changes (R80, R81). -/
  | pinned {t : RunnerTable} {x : PassState} {i : Slot} {r : Record} (occupied : t.slots[i] = some r)
    (pin : Option Level) (room : ∀ k ∈ pin, k ≠ 0 ∧ (t.isPinned i = true ∨ t.pinnedCount < 32)) :
    TableStep (t, x) (t.put i { r with pin }, x)
  /-- The table is flushed (R85). -/
  | flushed (t : RunnerTable) (x : PassState) : TableStep (t, x) (t.flush, x)
  /-- A stale fill is counted (R78). -/
  | counted (t : RunnerTable) (x : PassState) (staleFills : Nat) : TableStep (t, x) ({ t with staleFills }, x)
  /-- Records are marked STALE, and the pass starts at slot 0 (R99). -/
  | marked (t : RunnerTable) (x : PassState) (named : Record → Bool) :
    TableStep (t, x) (markStale named t, { position := some 0 })
  /-- The pass moves on from a slot that is not STALE (R100). -/
  | movedOn {t : RunnerTable} {i : Slot} (fresh : ∀ r, t.slots[i] = some r → r.stale = false) :
    TableStep (t, { position := some i }) (t, { position := nextPosition i })

/-- A run of operations of the table and the pass. -/
abbrev TableSteps : RunnerTable × PassState → RunnerTable × PassState → Prop := Relation.ReflTransGen TableStep

/-! ### The recency order (R65) -/

theorem flush_order_perm (t : RunnerTable) : t.flush.order.Perm t.order := List.filter_append_perm t.kept t.order

theorem tableStep_order {p q : RunnerTable × PassState} (step : TableStep p q)
    (h : p.1.order.Perm (List.finRange 256)) : q.1.order.Perm (List.finRange 256) := by
  have listed (i : Slot) : i ∈ p.1.order := h.mem_iff.mpr (List.mem_finRange i)
  cases step with
  | recent t x i => exact (toFront_perm (listed i)).trans h
  | allocated enters slot fill pin =>
    refine .trans ?_ h
    refine .trans (.of_eq (allocate_order slot)) ?_
    exact (List.perm_cons_erase (listed _)).symm
  | @requested t u _ _ _ enters slot fill unpinned room =>
    refine .trans ?_ h
    refine .trans (.of_eq (allocate_order (u := u) slot)) ?_
    exact (List.perm_cons_erase (listed _)).symm
  | timedOut t x now =>
    rw [timeOutFills_eq]
    exact h
  | flushed t x => exact (flush_order_perm t).trans h
  | recorded | filled | fetched | pinned | counted | marked | movedOn => exact h

/-! ### Bibs (R62, R63) -/

/-- Bibs stay unique where every record has the bib of the one before it in its slot. -/
theorem bibsSound_of_kept {t u : RunnerTable} (h : BibsSound t)
    (kept : ∀ (j : Slot) (q : Record), u.slots[j] = some q → ∃ r, t.slots[j] = some r ∧ q.bib = r.bib) :
    BibsSound u := by
  obtain ⟨unique, range⟩ := h
  refine ⟨fun i j r q hr hq same => ?_, fun i r hr => ?_⟩
  · obtain ⟨r', hr', rbib⟩ := kept i r hr
    obtain ⟨q', hq', qbib⟩ := kept j q hq
    exact unique i j r' q' hr' hq' (rbib ▸ qbib ▸ same)
  · obtain ⟨r', hr', rbib⟩ := kept i r hr
    exact rbib ▸ range i r' hr'

/-- A record put in place of one with the same bib keeps the bibs. -/
theorem put_keeps_bib {t : RunnerTable} {i : Slot} {r q : Record} (occupied : t.slots[i] = some r)
    (bib : q.bib = r.bib) (j : Slot) (q' : Record) (h : (t.put i q).slots[j] = some q') :
    ∃ r', t.slots[j] = some r' ∧ q'.bib = r'.bib := by
  rcases put_slots_cases h with ⟨rfl, rfl⟩ | ⟨-, h⟩
  · exact ⟨r, occupied, bib⟩
  · exact ⟨q', h, rfl⟩

/-- The slot of an allocation holds its record, the others what they held. -/
theorem allocate_slots_cases {t u : RunnerTable} {r q : Record} {i j : Slot} (slot : t.allocate r = some (i, u))
    (h : u.slots[j] = some q) : (j = i ∧ q = r) ∨ (j ≠ i ∧ t.slots[j] = some q) := by
  by_cases same : j = i
  · subst same
    rw [allocate_slots_self slot] at h
    exact .inl ⟨rfl, (Option.some.inj h).symm⟩
  · rw [allocate_slots_ne slot same] at h
    exact .inr ⟨same, h⟩

theorem bibOk_iff (bib : Nat) : bibOk bib = true ↔ 1 ≤ bib ∧ bib ≤ 65534 := by
  simp [bibOk]

theorem bibsSound_allocate {t u : RunnerTable} {r : Record} {i : Slot} (h : BibsSound t) (enters : Enters t r)
    (slot : t.allocate r = some (i, u)) : BibsSound u := by
  obtain ⟨unique, range⟩ := h
  have other {j : Slot} {q : Record} (hq : t.slots[j] = some q) : q.bib ≠ r.bib := lookup_none enters.absent j q hq
  refine ⟨fun j k q q' hq hq' same => ?_, fun j q hq => ?_⟩
  · rcases allocate_slots_cases slot hq with ⟨rfl, rfl⟩ | ⟨-, hq⟩ <;>
      rcases allocate_slots_cases slot hq' with ⟨rfl, rfl⟩ | ⟨-, hq'⟩
    · rfl
    · exact absurd same.symm (other hq')
    · exact absurd same (other hq)
    · exact unique j k q q' hq hq' same
  · rcases allocate_slots_cases slot hq with ⟨-, rfl⟩ | ⟨-, hq⟩
    · exact (bibOk_iff _).mp enters.bibs
    · exact range j q hq

/-- A record after a fill timeout is the one before it, or that one UNFILLED. -/
theorem timeOutFills_record {now : Nat} {t : RunnerTable} {j : Slot} {q : Record}
    (h : (timeOutFills now t).slots[j] = some q) : ∃ r, t.slots[j] = some r ∧ (q = r ∨ q = r.unfilled) := by
  rw [timeOutFills_slots] at h
  split at h
  · obtain ⟨r, hr, rfl⟩ := Option.map_eq_some_iff.mp h
    exact ⟨r, hr, .inr rfl⟩
  · exact ⟨q, h, .inl rfl⟩

theorem flush_record {t : RunnerTable} {j : Slot} {q : Record} (h : t.flush.slots[j] = some q) :
    t.kept j = true ∧ t.slots[j] = some q := by
  rw [flush_slots] at h
  split at h
  · exact ⟨by assumption, h⟩
  · cases h

/-- A record after a marking is the one before it, or that one STALE. -/
theorem markStale_record {named : Record → Bool} {t : RunnerTable} {j : Slot} {q : Record}
    (h : (markStale named t).slots[j] = some q) :
    ∃ r, t.slots[j] = some r ∧ (q = r ∨ q = { r with stale := true }) := by
  rw [markStale_slots] at h
  obtain ⟨r, hr, rfl⟩ := Option.map_eq_some_iff.mp h
  refine ⟨r, hr, ?_⟩
  split
  · exact .inr rfl
  · exact .inl rfl

theorem tableStep_bibs {p q : RunnerTable × PassState} (step : TableStep p q) (h : BibsSound p.1) :
    BibsSound q.1 := by
  cases step with
  | recorded occupied bib => exact bibsSound_of_kept h (put_keeps_bib occupied bib)
  | filled occupied bib => exact bibsSound_of_kept h (put_keeps_bib occupied bib)
  | pinned occupied pin => exact bibsSound_of_kept h (put_keeps_bib occupied rfl)
  | allocated enters slot => exact bibsSound_allocate h enters slot
  | @requested t u _ _ _ enters slot => exact bibsSound_allocate (u := u) h enters slot
  | timedOut t x now =>
    refine bibsSound_of_kept h fun j q hq => ?_
    obtain ⟨r, hr, rfl | rfl⟩ := timeOutFills_record hq
    · exact ⟨q, hr, rfl⟩
    · exact ⟨r, hr, rfl⟩
  | flushed t x => exact bibsSound_of_kept h fun j q hq => ⟨q, (flush_record hq).2, rfl⟩
  | marked t x named =>
    refine bibsSound_of_kept h fun j q hq => ?_
    obtain ⟨r, hr, rfl | rfl⟩ := markStale_record hq
    · exact ⟨q, hr, rfl⟩
    · exact ⟨r, hr, rfl⟩
  | recent | fetched | counted | movedOn => exact h

/-! ### Pins (R67) -/

theorem pinnedCount_le_of_subset {t u : RunnerTable} {l : List Slot}
    (h : ∀ j, u.isPinned j = true → t.isPinned j = true ∨ j ∈ l) : u.pinnedCount ≤ t.pinnedCount + l.length := by
  rw [RunnerTable.pinnedCount, RunnerTable.pinnedCount, ← List.length_append]
  refine length_filter_finRange_le fun j hj => ?_
  rw [List.mem_append, List.mem_filter]
  exact (h j hj).imp_left fun pinned => ⟨List.mem_finRange j, pinned⟩

/-- Pins stay sound where every record has the pin of the one before it in its slot. -/
theorem pinsSound_of_kept {t u : RunnerTable} (h : PinsSound t)
    (kept : ∀ (j : Slot) (q : Record), u.slots[j] = some q → ∃ r, t.slots[j] = some r ∧ q.pin = r.pin) :
    PinsSound u := by
  obtain ⟨count, levels⟩ := h
  refine ⟨?_, fun i q hq k hk => ?_⟩
  · refine (pinnedCount_le_of_subset (l := []) fun j pinned => .inl ?_).trans count
    obtain ⟨q, k, hq, hk⟩ := (isPinned_iff u j).mp pinned
    obtain ⟨r, hr, same⟩ := kept j q hq
    exact (isPinned_iff t j).mpr ⟨r, k, hr, same ▸ hk⟩
  · obtain ⟨r, hr, same⟩ := kept i q hq
    exact levels i r hr k (same ▸ hk)

/-- One record more with a pin, where there is room for it or its slot was pinned before. -/
theorem pinsSound_of_entered {t u : RunnerTable} {i : Slot} {r : Record} (h : PinsSound t)
    (others : ∀ (j : Slot) (q : Record), u.slots[j] = some q → (j = i ∧ q = r) ∨ (j ≠ i ∧ t.slots[j] = some q))
    (room : ∀ k ∈ r.pin, k ≠ 0 ∧ (t.isPinned i = true ∨ t.pinnedCount < 32)) : PinsSound u := by
  obtain ⟨count, levels⟩ := h
  have pinned_of {j : Slot} (pinned : u.isPinned j = true) :
      t.isPinned j = true ∨ (j = i ∧ ∃ k, r.pin = some k) := by
    obtain ⟨q, k, hq, hk⟩ := (isPinned_iff u j).mp pinned
    rcases others j q hq with ⟨same, rfl⟩ | ⟨-, hq⟩
    · exact .inr ⟨same, k, hk⟩
    · exact .inl ((isPinned_iff t j).mpr ⟨q, k, hq, hk⟩)
  refine ⟨?_, fun j q hq k hk => ?_⟩
  · by_cases more : ∃ k, r.pin = some k ∧ t.isPinned i = false
    · obtain ⟨k, hk, unpinned⟩ := more
      have space : t.pinnedCount < 32 := by simpa [unpinned] using (room k hk).2
      have := pinnedCount_le_of_subset (l := [i]) fun j pinned =>
        (pinned_of pinned).imp_right fun ⟨same, _⟩ => List.mem_singleton.mpr same
      simp only [List.length_singleton] at this
      omega
    · refine (pinnedCount_le_of_subset (l := []) fun j pinned => .inl ?_).trans count
      rcases pinned_of pinned with pinned | ⟨rfl, k, hk⟩
      · exact pinned
      · by_contra unpinned
        exact more ⟨k, hk, by simpa using unpinned⟩
  · rcases others j q hq with ⟨-, rfl⟩ | ⟨-, hq⟩
    · exact Nat.one_le_iff_ne_zero.mpr (Fin.val_ne_zero_iff.mpr (room k hk).1)
    · exact levels j q hq k hk

/-- A record put in place of one with the same pin keeps the pins. -/
theorem put_keeps_pin {t : RunnerTable} {i : Slot} {r q : Record} (occupied : t.slots[i] = some r)
    (pin : q.pin = r.pin) (j : Slot) (q' : Record) (h : (t.put i q).slots[j] = some q') :
    ∃ r', t.slots[j] = some r' ∧ q'.pin = r'.pin := by
  rcases put_slots_cases h with ⟨rfl, rfl⟩ | ⟨-, h⟩
  · exact ⟨r, occupied, pin⟩
  · exact ⟨q', h, rfl⟩

theorem tableStep_pins {p q : RunnerTable × PassState} (step : TableStep p q) (h : PinsSound p.1) :
    PinsSound q.1 := by
  cases step with
  | recorded occupied bib pin => exact pinsSound_of_kept h (put_keeps_pin occupied pin)
  | filled occupied bib pin => exact pinsSound_of_kept h (put_keeps_pin occupied pin)
  | pinned occupied pin room => exact pinsSound_of_entered h (fun _ _ => put_slots_cases) room
  | allocated enters slot fill pin =>
    exact pinsSound_of_entered h (fun _ _ => allocate_slots_cases slot) fun k hk =>
      ⟨(pin k hk).1, .inr (pin k hk).2⟩
  | @requested t u _ _ _ enters slot fill unpinned =>
    exact pinsSound_of_entered (u := u) h (fun _ _ => allocate_slots_cases slot) fun k hk =>
      nomatch unpinned ▸ hk
  | timedOut t x now =>
    refine pinsSound_of_kept h fun j q hq => ?_
    obtain ⟨r, hr, rfl | rfl⟩ := timeOutFills_record hq
    · exact ⟨q, hr, rfl⟩
    · exact ⟨r, hr, rfl⟩
  | flushed t x => exact pinsSound_of_kept h fun j q hq => ⟨q, (flush_record hq).2, rfl⟩
  | marked t x named =>
    refine pinsSound_of_kept h fun j q hq => ?_
    obtain ⟨r, hr, rfl | rfl⟩ := markStale_record hq
    · exact ⟨q, hr, rfl⟩
    · exact ⟨r, hr, rfl⟩
  | recent | fetched | counted | movedOn => exact h

/-! ### Fill requests (R71 to R75) -/

/-- A slot holds a NEW record of a bib: what a fill request says of its slot (R71). -/
def Requested (t : RunnerTable) (i : Slot) (bib : Nat) : Prop :=
  ∃ r, t.slots[i] = some r ∧ r.bib = bib ∧ r.fill = .new

theorem fillsSound_iff (t : RunnerTable) :
    FillsSound t ↔ t.fills.length ≤ 32 ∧ (t.fills.map fun e => e.bib).Nodup ∧
      (∀ e ∈ t.fills, FillSound e ∧ Requested t e.slot e.bib) ∧
      ∀ (i : Slot) (bib : Nat), Requested t i bib → ∃ e ∈ t.fills, e.bib = bib := by
  refine and_congr_right fun _ => and_congr_right fun _ => and_congr_right fun _ => ?_
  refine ⟨fun h i bib => ?_, fun h i r hr new => h i r.bib ⟨r, hr, rfl, new⟩⟩
  rintro ⟨r, hr, rfl, new⟩
  exact h i r hr new

/-- Fill requests stay sound where those left are sound requests from before whose slots still hold their NEW
records, and where every NEW record is from before and keeps its request. -/
theorem fillsSound_of_kept {t u : RunnerTable} (h : FillsSound t) (length : u.fills.length ≤ t.fills.length)
    (distinct : (u.fills.map fun e => e.bib).Nodup)
    (entries : ∀ e ∈ u.fills, FillSound e ∧ ∃ d ∈ t.fills, d.bib = e.bib ∧ d.slot = e.slot)
    (named : ∀ e ∈ u.fills, Requested t e.slot e.bib → Requested u e.slot e.bib)
    (records : ∀ (i : Slot) (bib : Nat), Requested u i bib →
      Requested t i bib ∧ ∀ d ∈ t.fills, d.bib = bib → ∃ e ∈ u.fills, e.bib = bib) : FillsSound u := by
  rw [fillsSound_iff] at h ⊢
  obtain ⟨room, -, old, requests⟩ := h
  refine ⟨length.trans room, distinct, fun e he => ?_, fun i bib new => ?_⟩
  · obtain ⟨sound, d, hd, bib, slot⟩ := entries e he
    exact ⟨sound, named e he (slot ▸ bib ▸ (old d hd).2)⟩
  · obtain ⟨before, keeps⟩ := records i bib new
    obtain ⟨d, hd, dbib⟩ := requests i bib before
    exact keeps d hd dbib

/-- Fill requests stay sound where the same slots hold NEW records of the same bibs. -/
theorem fillsSound_of_requested {t u : RunnerTable} (h : FillsSound t) (fills : u.fills = t.fills)
    (same : ∀ (i : Slot) (bib : Nat), Requested u i bib ↔ Requested t i bib) : FillsSound u := by
  rw [fillsSound_iff, fills] at *
  simpa only [same] using h

theorem requested_put {t : RunnerTable} {i : Slot} {q : Record} (j : Slot) (bib : Nat) :
    Requested (t.put i q) j bib ↔
      (j = i ∧ q.bib = bib ∧ q.fill = .new) ∨ (j ≠ i ∧ Requested t j bib) := by
  unfold Requested
  by_cases same : j = i
  · subst same
    rw [RunnerTable.put_slots_self]
    simp
  · rw [RunnerTable.put_slots_ne t q same]
    simp [same]

/-- A record put in place of one with the same bib and fill state requests what that one did. -/
theorem requested_put_same {t : RunnerTable} {i : Slot} {r q : Record} (occupied : t.slots[i] = some r)
    (bib : q.bib = r.bib) (fill : q.fill = r.fill) (j : Slot) (b : Nat) :
    Requested (t.put i q) j b ↔ Requested t j b := by
  rw [requested_put]
  by_cases same : j = i
  · subst same
    simp [Requested, occupied, bib, fill]
  · simp [same]

/-- Requests stay sound where one slot's record, if it has one, leaves with its request, and a record that is not
NEW takes its place. -/
theorem fillsSound_of_left {t u : RunnerTable} {i : Slot} (h : FillsSound t) (bibs : BibsSound t)
    (fills : u.fills = t.fills.filter fun e => (t.slots[i].map fun r => r.bib) ≠ some e.bib)
    (others : ∀ j, j ≠ i → u.slots[j] = t.slots[j])
    (here : ∀ q, u.slots[i] = some q → q.fill ≠ .new) : FillsSound u := by
  have elsewhere {j : Slot} (bib : Nat) (other : j ≠ i) : Requested u j bib ↔ Requested t j bib := by
    unfold Requested
    rw [others j other]
  have sub : u.fills.Sublist t.fills := fills ▸ List.filter_sublist
  have distinct := h.2.1
  refine fillsSound_of_kept h sub.length_le (distinct.sublist (sub.map _)) (fun e he => ?_) (fun e he => ?_)
    fun j bib new => ?_
  · exact ⟨(h.2.2.1 e (sub.subset he)).1, e, sub.subset he, rfl, rfl⟩
  · rw [fills, List.mem_filter] at he
    obtain ⟨-, stays⟩ := he
    intro new
    refine (elsewhere e.bib ?_).mpr new
    rintro rfl
    obtain ⟨r, hr, rbib, -⟩ := new
    simp [hr, rbib] at stays
  · have other : j ≠ i := by
      rintro rfl
      obtain ⟨q, hq, -, qnew⟩ := new
      exact here q hq qnew
    have before := (elsewhere bib other).mp new
    refine ⟨before, fun d hd dbib => ⟨d, ?_, dbib⟩⟩
    rw [fills, List.mem_filter]
    refine ⟨hd, ?_⟩
    obtain ⟨r, hr, rbib, -⟩ := before
    refine decide_eq_true fun same => ?_
    obtain ⟨q, hq, qbib⟩ := Option.map_eq_some_iff.mp same
    exact other (bibs.1 j i r q hr hq ((rbib.trans dbib.symm).trans qbib.symm))

/-- Requests stay sound where a NEW record enters a free slot with its request at the tail (R72). -/
theorem fillsSound_of_entered {t u : RunnerTable} {i : Slot} {bib : Nat} (h : FillsSound t)
    (absent : ∀ (j : Slot) (q : Record), t.slots[j] = some q → q.bib ≠ bib) (free : t.slots[i] = none)
    (room : t.fills.length < 32)
    (fills : u.fills = t.fills ++ [{ bib, slot := i, sent := false, offers := 0, sentAt := none }])
    (slots : ∀ (j : Slot) (b : Nat), Requested u j b ↔ (j = i ∧ bib = b) ∨ (j ≠ i ∧ Requested t j b)) :
    FillsSound u := by
  rw [fillsSound_iff] at h ⊢
  obtain ⟨-, distinct, old, requests⟩ := h
  have unlisted : ∀ e ∈ t.fills, e.bib ≠ bib ∧ e.slot ≠ i := fun e he => by
    obtain ⟨-, q, hq, qbib, -⟩ := old e he
    refine ⟨fun same => absent e.slot q hq (qbib.trans same), fun same => ?_⟩
    rw [same, free] at hq
    cases hq
  rw [fills]
  refine ⟨by simpa using room, ?_, fun e he => ?_, fun j b hj => ?_⟩
  · rw [List.map_append, List.nodup_append]
    refine ⟨distinct, by simp, ?_⟩
    rintro b hb b' hb' rfl
    obtain ⟨e, he, rfl⟩ := List.mem_map.mp hb
    exact (unlisted e he).1 (List.mem_singleton.mp hb')
  · rcases List.mem_append.mp he with he | he
    · exact ⟨(old e he).1, (slots _ _).mpr (.inr ⟨(unlisted e he).2, (old e he).2⟩)⟩
    · obtain rfl := List.mem_singleton.mp he
      exact ⟨⟨by simp, by simp, by simp⟩, (slots _ _).mpr (.inl ⟨rfl, rfl⟩)⟩
  · rcases (slots j b).mp hj with ⟨-, rfl⟩ | ⟨-, before⟩
    · exact ⟨_, List.mem_append_right _ (List.mem_singleton.mpr rfl), rfl⟩
    · obtain ⟨e, he, ebib⟩ := requests j b before
      exact ⟨e, List.mem_append_left _ he, ebib⟩

theorem fillsSound_requested {t u : RunnerTable} {r : Record} {i : Slot} (h : FillsSound t) (bibs : BibsSound t)
    (enters : Enters t r) (slot : t.allocate r = some (i, u)) (new : r.fill = .new) (room : u.fills.length < 32) :
    FillsSound (u.enterFill r.bib i) := by
  have free : (t.evict i).slots[i] = none := by simp [RunnerTable.evict_eq]
  have left : u.fills = (t.evict i).fills := by rw [allocate_fills slot, RunnerTable.evict_eq]
  have evicted : FillsSound (t.evict i) :=
    fillsSound_of_left h bibs (i := i) (by rw [RunnerTable.evict_eq]) (fun j other => evict_slots_ne t other)
      fun q hq => nomatch free ▸ hq
  refine fillsSound_of_entered (i := i) (bib := r.bib) evicted (fun j q hq => ?_) free (left ▸ room)
    (congrArg (· ++ _) left) fun j b => ?_
  · by_cases same : j = i
    · rw [same, free] at hq
      cases hq
    · rw [evict_slots_ne t same] at hq
      exact lookup_none enters.absent j q hq
  · show Requested u j b ↔ _
    obtain ⟨-, rfl⟩ := allocate_some slot
    exact (requested_put (t := t.evict i) j b).trans (by simp [new])

/-- A FILL_TIMEOUT leaves an entry sound unless it is given up (R74). -/
theorem fillSound_timedOut {now : Nat} {e : FillRequest} (h : FillSound e) (stays : fillGivenUp now e = false) :
    FillSound (timedOutEntry now e) := by
  unfold timedOutEntry
  split
  · rename_i expired
    have few : ¬ 3 ≤ e.offers := fun many => by
      simp [(fillGivenUp_iff now e).mpr ⟨expired, many⟩] at stays
    obtain ⟨-, -, sentAt⟩ := h
    exact ⟨by simp, fun _ => by dsimp only; omega, sentAt⟩
  · exact h

theorem fillSound_sentAgain {now : Nat} {e : FillRequest} (h : FillSound e) (waiting : e.sent = false) :
    FillSound (e.sentAgain now) := by
  obtain ⟨-, few, -⟩ := h
  have := few waiting
  exact ⟨fun _ => by simp only [FillRequest.sentAgain]; omega, by simp [FillRequest.sentAgain],
    by simp [FillRequest.sentAgain]⟩

theorem timedOutEntry_bib (now : Nat) (e : FillRequest) : (timedOutEntry now e).bib = e.bib := by
  unfold timedOutEntry
  split <;> rfl

theorem timedOutEntry_slot (now : Nat) (e : FillRequest) : (timedOutEntry now e).slot = e.slot := by
  unfold timedOutEntry
  split <;> rfl

/-- A NEW record after a timeout is one from before that no given-up entry names (R74). -/
theorem requested_timedOut (now : Nat) (t : RunnerTable) (i : Slot) (bib : Nat) :
    Requested (timeOutFills now t) i bib ↔
      Requested t i bib ∧ ∀ e ∈ t.fills, fillGivenUp now e = true → e.slot ≠ i := by
  unfold Requested
  rw [timeOutFills_slots]
  split
  · rename_i given
    obtain ⟨e, he, hgiven⟩ := List.any_eq_true.mp given
    obtain ⟨up, here⟩ := Bool.and_eq_true_iff.mp hgiven
    refine iff_of_false ?_ fun kept => kept.2 e he up (eq_of_beq here)
    rintro ⟨q, hq, -, new⟩
    obtain ⟨r, -, rfl⟩ := Option.map_eq_some_iff.mp hq
    cases new
  · rename_i kept
    refine (and_iff_left fun e he up here => kept ?_).symm
    exact List.any_eq_true.mpr ⟨e, he, by simp [up, here]⟩

theorem fillsSound_timedOut {t : RunnerTable} (now : Nat) (h : FillsSound t) (bibs : BibsSound t) :
    FillsSound (timeOutFills now t) := by
  have fills : (timeOutFills now t).fills =
      (t.fills.filter fun e => !fillGivenUp now e).map (timedOutEntry now) := by rw [timeOutFills_eq]
  have mem {e : FillRequest} (he : e ∈ (timeOutFills now t).fills) :
      ∃ d ∈ t.fills, fillGivenUp now d = false ∧ e = timedOutEntry now d := by
    rw [fills] at he
    obtain ⟨d, hd, rfl⟩ := List.mem_map.mp he
    obtain ⟨hd, stays⟩ := List.mem_filter.mp hd
    exact ⟨d, hd, by simpa using stays, rfl⟩
  have distinct := h.2.1
  have old := ((fillsSound_iff t).mp h).2.2.1
  refine fillsSound_of_kept h ?_ ?_ (fun e he => ?_) (fun e he new => ?_) fun i bib new => ?_
  · rw [fills, List.length_map]
    exact List.length_filter_le ..
  · rw [fills, List.map_map]
    rw [show (fun e : FillRequest => e.bib) ∘ timedOutEntry now = fun e => e.bib from
      funext (timedOutEntry_bib now)]
    exact distinct.sublist (List.filter_sublist.map _)
  · obtain ⟨d, hd, stays, rfl⟩ := mem he
    exact ⟨fillSound_timedOut (old d hd).1 stays, d, hd, (timedOutEntry_bib now d).symm,
      (timedOutEntry_slot now d).symm⟩
  · obtain ⟨d, hd, stays, rfl⟩ := mem he
    refine (requested_timedOut now t _ _).mpr ⟨new, fun e' he' up same => ?_⟩
    rw [timedOutEntry_slot] at same
    obtain ⟨-, r, hr, rbib, -⟩ := old d hd
    obtain ⟨-, r', hr', rbib', -⟩ := old e' he'
    rw [same, hr] at hr'
    cases hr'
    have : e' = d := List.inj_on_of_nodup_map distinct he' hd (rbib'.symm.trans rbib)
    subst this
    rw [up] at stays
    cases stays
  · obtain ⟨before, kept⟩ := (requested_timedOut now t i bib).mp new
    refine ⟨before, fun d hd dbib => ⟨timedOutEntry now d, ?_, (timedOutEntry_bib now d).trans dbib⟩⟩
    rw [fills]
    refine List.mem_map_of_mem (List.mem_filter.mpr ⟨hd, ?_⟩)
    obtain ⟨r, hr, rbib, -⟩ := before
    obtain ⟨-, q, hq, qbib, -⟩ := old d hd
    have : d.slot = i := bibs.1 d.slot i q r hq hr (qbib.trans (dbib.trans rbib.symm))
    by_contra up
    exact kept d hd (by simpa using up) this

theorem requested_flush (t : RunnerTable) (i : Slot) (bib : Nat) :
    Requested t.flush i bib ↔ Requested t i bib ∧ t.kept i = true := by
  unfold Requested
  rw [flush_slots]
  cases t.kept i <;> simp

theorem fillsSound_flush {t : RunnerTable} (h : FillsSound t) (bibs : BibsSound t) : FillsSound t.flush := by
  have sub : t.flush.fills.Sublist t.fills := List.filter_sublist
  have distinct := h.2.1
  have old := ((fillsSound_iff t).mp h).2.2.1
  refine fillsSound_of_kept h sub.length_le (distinct.sublist (sub.map _)) (fun e he => ?_) (fun e he new => ?_)
    fun i bib new => ?_
  · exact ⟨(old e (sub.subset he)).1, e, sub.subset he, rfl, rfl⟩
  · exact (requested_flush t _ _).mpr ⟨new, (List.mem_filter.mp he).2⟩
  · obtain ⟨before, kept⟩ := (requested_flush t i bib).mp new
    refine ⟨before, fun d hd dbib => ⟨d, List.mem_filter.mpr ⟨hd, ?_⟩, dbib⟩⟩
    obtain ⟨r, hr, rbib, -⟩ := before
    obtain ⟨-, q, hq, qbib, -⟩ := old d hd
    rwa [bibs.1 d.slot i q r hq hr (qbib.trans (dbib.trans rbib.symm))]

theorem fillsSound_fetched {t : RunnerTable} (now n : Nat) (h : FillsSound t) :
    FillsSound { t with fills := (takeFills now n t.fills).1 } := by
  have bibs := takeFills_bibs now n t.fills
  refine fillsSound_of_kept h (takeFills_length now n t.fills).le (bibs ▸ h.2.1) (fun e he => ?_)
    (fun _ _ new => new) fun i bib new => ⟨new, fun d hd dbib => ?_⟩
  · obtain ⟨d, hd, rfl | ⟨waiting, rfl⟩⟩ := mem_takeFills he
    · exact ⟨(h.2.2.1 e hd).1, e, hd, rfl, rfl⟩
    · exact ⟨fillSound_sentAgain (h.2.2.1 d hd).1 waiting, d, hd, rfl, rfl⟩
  · obtain ⟨e, he, ebib⟩ := List.mem_map.mp (bibs ▸ List.mem_map_of_mem (f := fun e : FillRequest => e.bib) hd)
    exact ⟨e, he, ebib.trans dbib⟩

theorem requested_markStale (named : Record → Bool) (t : RunnerTable) (i : Slot) (bib : Nat) :
    Requested (markStale named t) i bib ↔ Requested t i bib := by
  unfold Requested
  rw [markStale_slots]
  cases t.slots[i] with
  | none => simp
  | some r => cases hn : named r <;> simp [hn]

theorem tableStep_fills {p q : RunnerTable × PassState} (step : TableStep p q) (bibs : BibsSound p.1)
    (h : FillsSound p.1) : FillsSound q.1 := by
  cases step with
  | recorded occupied bib pin fill =>
    exact fillsSound_of_requested h rfl (requested_put_same occupied bib fill)
  | pinned occupied pin => exact fillsSound_of_requested h rfl (requested_put_same occupied rfl rfl)
  | @filled t x i r q occupied bib pin fill =>
    refine fillsSound_of_left (i := i) h bibs ?_ (fun j other => RunnerTable.put_slots_ne _ q other) fun q' hq => ?_
    · refine List.filter_congr fun e _ => ?_
      simp [show t.slots[i] = _ from occupied, eq_comm]
    · rw [show ((t.withdraw r.bib).put i q).slots[i] = _ from RunnerTable.put_slots_self ..] at hq
      obtain rfl := Option.some.inj hq
      simp [fill]
  | allocated enters slot fill =>
    refine fillsSound_of_left h bibs (allocate_fills slot) (fun j => allocate_slots_ne slot) fun q hq => ?_
    rw [allocate_slots_self slot] at hq
    exact Option.some.inj hq ▸ fill
  | requested enters slot fill unpinned room => exact fillsSound_requested h bibs enters slot fill room
  | fetched t x now n => exact fillsSound_fetched now n h
  | timedOut t x now => exact fillsSound_timedOut now h bibs
  | flushed t x => exact fillsSound_flush h bibs
  | marked t x named => exact fillsSound_of_requested h rfl (requested_markStale named t)
  | recent | counted | movedOn => exact h

end Sys2Proof.Machine
end

section
/-! The STALE marks, and what an operation of the five blocks makes of the runner table and the pass: a run of
their operations, besides what happens to the hold counts (R98, and the step lemmas of chapter 4). -/

namespace Sys2Proof.Machine

/-! ### STALE marks (R98) -/

/-- A slot is STALE only at or beyond the position of a pass in flight (R98). -/
def StaleBeyond (p : RunnerTable × PassState) : Prop :=
  ∀ (i : Slot) (r : Record), p.1.slots[i] = some r → r.stale = true → ∃ k ∈ p.2.position, k ≤ i

/-- STALE marks stay sound, with the pass where it was, when every STALE record was STALE in its slot before. -/
theorem staleBeyond_of_kept {t u : RunnerTable} {x : PassState} (h : StaleBeyond (t, x))
    (kept : ∀ (j : Slot) (q : Record), u.slots[j] = some q → q.stale = true →
      ∃ r, t.slots[j] = some r ∧ r.stale = true) : StaleBeyond (u, x) := by
  intro i q hq stale
  obtain ⟨r, hr, was⟩ := kept i q hq stale
  exact h i r hr was

/-- A record that is not STALE, or was STALE before, in one slot. -/
theorem staleBeyond_of_one {t u : RunnerTable} {x : PassState} {i : Slot} {r : Record} (h : StaleBeyond (t, x))
    (others : ∀ (j : Slot) (q : Record), u.slots[j] = some q → (j = i ∧ q = r) ∨ (j ≠ i ∧ t.slots[j] = some q))
    (here : r.stale = true → ∃ q, t.slots[i] = some q ∧ q.stale = true) : StaleBeyond (u, x) := by
  refine staleBeyond_of_kept h fun j q hq stale => ?_
  rcases others j q hq with ⟨rfl, rfl⟩ | ⟨-, hq⟩
  · exact here stale
  · exact ⟨q, hq, stale⟩

/-- The pass moves on from a slot to the next, and ends after the last (R100). -/
theorem nextPosition_le {i j : Slot} (h : i < j) : ∃ k ∈ nextPosition i, k ≤ j := by
  have le : i.val + 1 ≤ j.val := h
  exact ⟨⟨i.val + 1, le.trans_lt j.isLt⟩, toFin_of_lt _, le⟩

theorem tableStep_stale {p q : RunnerTable × PassState} (step : TableStep p q) (h : StaleBeyond p) :
    StaleBeyond q := by
  cases step with
  | recorded occupied bib pin fill name stale =>
    exact staleBeyond_of_one h (fun _ _ => put_slots_cases) fun was => ⟨_, occupied, stale was⟩
  | filled occupied bib pin fill name fresh =>
    exact staleBeyond_of_one h (fun _ _ => put_slots_cases) fun was => absurd was (by simp [fresh])
  | pinned occupied pin => exact staleBeyond_of_one h (fun _ _ => put_slots_cases) fun was => ⟨_, occupied, was⟩
  | allocated enters slot =>
    exact staleBeyond_of_one h (fun _ _ => allocate_slots_cases slot) fun was =>
      absurd was (by simp [enters.fresh])
  | @requested t u _ _ _ enters slot =>
    exact staleBeyond_of_one (u := u) h (fun _ _ => allocate_slots_cases slot) fun was =>
      absurd was (by simp [enters.fresh])
  | timedOut t x now =>
    refine staleBeyond_of_kept h fun j q hq stale => ?_
    obtain ⟨r, hr, rfl | rfl⟩ := timeOutFills_record hq
    · exact ⟨q, hr, stale⟩
    · exact ⟨r, hr, stale⟩
  | flushed t x => exact staleBeyond_of_kept h fun j q hq stale => ⟨q, (flush_record hq).2, stale⟩
  | marked t x named => exact fun i _ _ _ => ⟨0, rfl, Fin.zero_le i⟩
  | @movedOn t i fresh =>
    intro j r hr stale
    obtain ⟨k, hk, le⟩ := h j r hr stale
    obtain rfl := Option.some.inj hk
    refine nextPosition_le (lt_of_le_of_ne le fun same => ?_)
    subst same
    simp [fresh r hr] at stale
  | recent | fetched | counted => exact h

/-! ### Runs of operations -/

/-- What every operation of the table keeps, a run of them keeps. -/
theorem tableSteps_keep {P : RunnerTable × PassState → Prop} (h : ∀ {p q}, TableStep p q → P p → P q)
    {p q : RunnerTable × PassState} (steps : TableSteps p q) (hp : P p) : P q := by
  induction steps with
  | refl => exact hp
  | tail _ step ih => exact h step ih

/-- `t` follows from `s` by a run of operations of the table and the pass, besides what happens to the hold counts
and to the other blocks. -/
def MovesTable (s t : State) : Prop :=
  ∃ u, TableSteps (s.rt, s.sa) (u, t.sa) ∧ t.rt = { u with holds := t.rt.holds }

/-- `t` has the table of `s`, besides the hold counts, and its pass. -/
def KeepsTable (s t : State) : Prop := t.rt = { s.rt with holds := t.rt.holds } ∧ t.sa = s.sa

theorem keepsTable_refl (s : State) : KeepsTable s s := ⟨rfl, rfl⟩

theorem KeepsTable.trans {s t u : State} (h : KeepsTable s t) (h' : KeepsTable t u) : KeepsTable s u := by
  obtain ⟨table, pass⟩ := h
  obtain ⟨table', pass'⟩ := h'
  exact ⟨by rw [table', table], pass'.trans pass⟩

theorem OnlyList.keepsTable {s t : State} (h : OnlyList s t) : KeepsTable s t := by
  obtain ⟨_, _, _, _, _, _, rfl⟩ := onlyList_iff.mp h
  exact ⟨rfl, rfl⟩

theorem OnlyBand.keepsTable {s t : State} (h : OnlyBand s t) : KeepsTable s t := by
  obtain ⟨_, _, _, rfl⟩ := onlyBand_iff.mp h
  exact ⟨rfl, rfl⟩

theorem MovesTable.trans_keeps {s t u : State} (h : MovesTable s t) (h' : KeepsTable t u) : MovesTable s u := by
  obtain ⟨table, steps, ht⟩ := h
  obtain ⟨table', pass'⟩ := h'
  exact ⟨table, pass' ▸ steps, by rw [table', ht]⟩

theorem KeepsTable.moves {s t : State} (h : KeepsTable s t) : MovesTable s t := by
  obtain ⟨table, pass⟩ := h
  exact ⟨s.rt, pass ▸ .refl, table⟩

/-- A run of operations on the table and the pass alone. -/
theorem movesTable_of_steps {s t : State} (steps : TableSteps (s.rt, s.sa) (t.rt, t.sa)) : MovesTable s t :=
  ⟨t.rt, steps, rfl⟩

/-! ### Records entering and changing (R49, R77, R83, R100) -/

/-- A new record of an absent bib may enter the table, whatever derivation it had. -/
theorem enters_fresh {t : RunnerTable} {bib : Nat} {r : Record} (absent : t.lookup bib = none)
    (bibs : bibOk bib = true) (same : r.bib = bib) (fresh : r.stale = false) (name : NameSound r) : Enters t r :=
  ⟨same ▸ absent, same ▸ bibs, fresh, name⟩

theorem nameSound_of_none {r : Record} (h : r.name = none) : NameSound r := fun _ hn => nomatch h ▸ hn

/-- The slot of a crossing is found, or allocated to a new record (R49). -/
theorem crossingSlot_steps {bib : Nat} {s t : State} {i : Slot} (bibs : bibOk bib = true)
    (h : crossingSlot bib s = some (i, t)) :
    t = s.withRt t.rt ∧ TableSteps (s.rt, s.sa) (t.rt, s.sa) ∧ ∃ r, t.rt.slots[i] = some r ∧ r.bib = bib := by
  unfold crossingSlot at h
  split at h
  · rename_i found
    cases h
    exact ⟨rfl, .refl, lookup_some found⟩
  · rename_i absent
    obtain ⟨u, slot, rfl⟩ := allocateForCrossing_some h
    split
    · rename_i room
      exact ⟨rfl, .single (.requested (enters_fresh absent bibs rfl rfl (nameSound_of_none rfl)) slot rfl rfl room),
        _, allocate_slots_self (u := u) slot, rfl⟩
    · exact ⟨rfl, .single (.allocated (enters_fresh absent bibs rfl rfl (nameSound_of_none rfl))
        (allocate_put _ slot) (by simp [Record.fresh]) fun k hk => nomatch hk),
        _, RunnerTable.put_slots_self .., rfl⟩

theorem updateRecord_keeps (cls : Class) (x : Nat) (source : Source) (r : Record) :
    (updateRecord cls x source r).pin = r.pin ∧ (updateRecord cls x source r).fill = r.fill ∧
      (updateRecord cls x source r).name = r.name ∧ (updateRecord cls x source r).stale = r.stale := by
  unfold updateRecord
  cases cls with
  | duplicate => dsimp only; split <;> exact ⟨rfl, rfl, rfl, rfl⟩
  | _ => exact ⟨rfl, rfl, rfl, rfl⟩

/-- A crossing's record keeps bib, pin, fill state and name, and does not become STALE (R51, R53). -/
theorem recordAfter_step {i : Slot} (reader : Reader) (timed : Bool) (x : Nat) {r : Record} {s : State}
    (occupied : s.rt.slots[i] = some r) (pass : PassState) :
    TableStep (s.rt, pass) (s.rt.put i (recordAfter reader timed x r s), pass) := by
  obtain ⟨pin, fill, name, stale⟩ := updateRecord_keeps (classify s.ci r x) x (sourceOf reader timed) r
  have bib : (recordAfter reader timed x r s).bib = r.bib := crossedRecord_bib ..
  refine .recorded occupied bib ?_ ?_ ?_ ?_ <;> unfold recordAfter crossedRecord <;> dsimp only <;> split
  · exact pin
  · exact pin
  · exact fill
  · exact fill
  · exact name
  · exact name
  · exact fun never => nomatch never
  · exact fun was => stale ▸ was

theorem crossSlot_movesTable {i : Slot} (reader : Reader) (timed : Bool) (x : Nat) (s : State) :
    MovesTable s (crossSlot i reader timed x s) := by
  cases occupied : s.rt.slots[i] with
  | none =>
    simp only [crossSlot, occupied]
    exact (keepsTable_refl s).moves
  | some r =>
    obtain ⟨fc, ls, bi, holds, frame⟩ := crossSlot_frame reader timed x occupied
    rw [frame]
    have recorded := recordAfter_step reader timed x occupied s.sa
    by_cases rest : classify s.ci r x = .duplicate ∨ classify s.ci r x = .extra
    · exact ⟨_, .single recorded, by simp [rest]⟩
    · exact ⟨_, (Relation.ReflTransGen.single recorded).tail (.recent _ _ i),
        by simp [rest, RunnerTable.toFront]⟩

/-- The name a Roster Fill carries is made of characters a cell may hold (R63). -/
theorem fillFields_name {n wave distance time : Nat} {name : List Byte} {f : FillFields}
    (h : fillFields n wave distance time name = some f) : ∀ l ∈ f.name, ∀ c ∈ l, charOk c := by
  unfold fillFields at h
  split at h
  · cases h
  split at h
  · cases h
  split at h
  · cases h
  split at h
  · cases h
  · cases h
    intro l hl c hc
    dsimp only at hl
    split at hl
    · cases hl
    · obtain rfl := Option.some.inj hl
      obtain ⟨b, -, rfl⟩ := List.mem_map.mp hc
      exact keepChar_ok (by decide) b

theorem applyFill_name {f : FillFields} (carried : ∀ l ∈ f.name, ∀ c ∈ l, charOk c) {r : Record}
    (h : NameSound r) : NameSound (applyFill f r) := by
  intro name hn
  cases hf : f.name with
  | some l =>
    simp only [applyFill, hf, Option.some_or, Option.mem_def, Option.some.injEq] at hn
    exact hn ▸ carried l hf
  | none =>
    simp only [applyFill, hf, Option.none_or] at hn
    exact h name hn

/-- A fill of a bib in the table stores the filled record and renders its slot again, if the slot is occupied. -/
theorem fillSlot_cases {bib : Nat} {f : FillFields} {i : Slot} {s : State} (pass : PassState)
    (found : s.rt.lookup bib = some i) (carried : ∀ l ∈ f.name, ∀ c ∈ l, charOk c) :
    ∃ u, TableStep (s.rt, pass) (u, pass) ∧ fillSlot i bib f s = rerender i (s.withRt u) := by
  obtain ⟨r, occupied, rfl⟩ := lookup_some found
  refine ⟨_, .filled (i := i) (q := derive s.cmu.waves s.ci (applyFill f r)) occupied rfl rfl rfl
    (applyFill_name carried) rfl, ?_⟩
  simp only [fillSlot, occupied]

/-- A record put back derived, or with a pass changed and derived. -/
theorem derived_step {t : RunnerTable} {x : PassState} {i : Slot} {r q : Record} (waves : Vector WaveEntry 8)
    (point : PointSettings) (occupied : t.slots[i] = some r) (bib : q.bib = r.bib) (pin : q.pin = r.pin)
    (fill : q.fill = r.fill) (name : q.name = r.name) : TableStep (t, x) (t.put i (derive waves point q), x) :=
  .recorded occupied bib pin fill name fun never => nomatch never

theorem correctSlot_cases (i : Slot) (pass : PassNo) (tick : Option Nat) (s : State) (x : PassState) :
    correctSlot i pass tick s = s ∨
      ∃ u, TableStep (s.rt, x) (u, x) ∧ correctSlot i pass tick s = rerender i (s.withRt u) := by
  cases occupied : s.rt.slots[i] with
  | none => exact .inl (by simp only [correctSlot, occupied])
  | some r =>
    refine .inr ⟨s.rt.put i (derive s.cmu.waves s.ci (r.withPass pass (correctedPass tick))), ?_, ?_⟩
    · cases pass <;> exact derived_step _ _ occupied rfl rfl rfl rfl
    · simp only [correctSlot, occupied]

theorem visitSlot_cases (i : Slot) (s : State) (x : PassState) :
    ((∀ r, s.rt.slots[i] = some r → r.stale = false) ∧ visitSlot i s = s) ∨
      ∃ r, s.rt.slots[i] = some r ∧
        TableStep (s.rt, x) (s.rt.put i (derive s.cmu.waves s.ci r), x) ∧
        visitSlot i s = rerender i (s.withRt (s.rt.put i (derive s.cmu.waves s.ci r))) := by
  cases occupied : s.rt.slots[i] with
  | none => exact .inl ⟨fun r hr => (nomatch hr), by simp only [visitSlot, occupied]⟩
  | some r =>
    by_cases stale : r.stale = true
    · exact .inr ⟨r, rfl, derived_step _ _ occupied rfl rfl rfl rfl,
        by simp only [visitSlot, State.deriveSlot, occupied, stale, if_true]⟩
    · refine .inl ⟨fun q hq => ?_, by simp only [visitSlot, occupied, stale]; rfl⟩
      exact Option.some.inj hq ▸ by simpa using stale

theorem rerender_keepsTable (i : Slot) (s : State) : KeepsTable s (rerender i s) :=
  (rerender_onlyCells i s).onlyList.keepsTable

theorem visited_movesTable {i : Slot} {s : State} (position : s.sa.position = some i) :
    MovesTable s ((visitSlot i s).withSa { position := nextPosition i }) := by
  have pass : s.sa = { position := some i } := by rw [← position]
  rcases visitSlot_cases i s s.sa with ⟨fresh, same⟩ | ⟨r, -, step, visit⟩
  · rw [same]
    exact movesTable_of_steps (pass ▸ .single (.movedOn fresh))
  · obtain ⟨table, -⟩ := rerender_keepsTable i (s.withRt (s.rt.put i (derive s.cmu.waves s.ci r)))
    refine ⟨_, (Relation.ReflTransGen.single step).tail (pass ▸ .movedOn fun q hq => ?_), visit ▸ table⟩
    rw [RunnerTable.put_slots_self] at hq
    exact Option.some.inj hq ▸ rfl

theorem setPin_steps (t : RunnerTable) (x : PassState) (i : Slot) (pin : Option Level)
    (room : ∀ k ∈ pin, k ≠ 0 ∧ (t.isPinned i = true ∨ t.pinnedCount < 32)) :
    TableSteps (t, x) (t.setPin i pin, x) := by
  cases occupied : t.slots[i] with
  | none =>
    rw [setPin_of_free pin occupied]
  | some r =>
    rw [setPin_of_occupied pin occupied]
    exact .single (.pinned occupied pin room)

/-- A stored wave entry gives its triggers, if it changes the gun or the range (R36, R99). -/
theorem withWave_steps (w : Wave) (entry : WaveEntry) (s : State) :
    TableSteps (s.rt, s.sa) ((withWave w entry s).rt, (withWave w entry s).sa) := by
  by_cases changed : (s.cmu.waves[w].gun != entry.gun || s.cmu.waves[w].range != entry.range) = true
  · simp only [withWave, changed, if_true]
    exact .single (.marked s.rt s.sa _)
  · have nothing : markedByWave w s.cmu.waves[w] entry = fun _ => false := by
      simp only [Bool.not_eq_true, Bool.or_eq_false_iff] at changed
      unfold markedByWave
      simp only [changed.1, changed.2, Bool.false_and, Bool.or_self]
    simp only [withWave, changed, nothing]
    rw [show markStale (fun _ => false) s.rt = s.rt from markStale_nothing s.rt]
    exact .refl

/-! ### The board's layout (R157) -/

theorem releaseLine_eq (t : RunnerTable) (b : Option ListLine) :
    releaseLine t b = { t with holds := (releaseLine t b).holds } := by
  cases b <;> rfl

theorem foldl_releaseLine_eq (l : List (Option ListLine)) (t : RunnerTable) :
    l.foldl releaseLine t = { t with holds := (l.foldl releaseLine t).holds } := by
  induction l generalizing t with
  | nil => rfl
  | cons b l ih => rw [List.foldl_cons, ih, releaseLine_eq]

theorem layoutList_keepsTable (s : State) : KeepsTable s (layoutList s) := by
  refine KeepsTable.trans (t := writeList (emptyList (s.bi.lineCount - s.bi.bandHeight) s)) ?_
    (headTest_onlyList _).keepsTable
  exact ⟨foldl_releaseLine_eq _ _, rfl⟩

theorem layoutBand_onlyBand (oldB : Nat) (oldWave : Wave) (s : State) : OnlyBand s (layoutBand oldB oldWave s) := by
  unfold layoutBand
  split
  · exact endShown_onlyBand false s
  · split
    · exact selectFeature_onlyBand s
    · split
      · exact (renderBand_onlyImage s).onlyBand
      · split
        · exact (renderIdleClock_onlyImage s).onlyBand
        · exact onlyBand_refl s

/-- A new layout stored and the image resized, before list and band act on it (R157). -/
def withLayout (n b : Nat) (w : Wave) (s : State) : State :=
  s.withBi { s.bi with lineCount := n, bandHeight := b, clockWave := w, image := resizeImage n s.bi.image }

/-- The list after a new layout: emptied and refilled, if the number of lines or the band height changed. -/
def listLaidOut (n b : Nat) (w : Wave) (s : State) : State :=
  if n ≠ s.bi.lineCount ∨ b ≠ s.bi.bandHeight then layoutList (withLayout n b w s) else withLayout n b w s

/-- The band after a new layout (R119, R157). -/
def bandLaidOut (n b : Nat) (w : Wave) (s : State) : State :=
  layoutBand s.bi.bandHeight s.bi.clockWave (listLaidOut n b w s)

/-- A Board Layout: the values and the resized image, the list, the band, the windows (R157). -/
theorem layoutChecked_eq (n b : Nat) (w : Wave) (s : State) :
    layoutChecked n b w s = (bandLaidOut n b w s).withBi (dropWindows n (bandLaidOut n b w s).bi) := rfl

theorem layoutChecked_keepsTable (n b : Nat) (w : Wave) (s : State) : KeepsTable s (layoutChecked n b w s) := by
  have list : KeepsTable s (listLaidOut n b w s) := by
    unfold listLaidOut
    split
    · exact layoutList_keepsTable (withLayout n b w s)
    · exact keepsTable_refl s
  exact list.trans (layoutBand_onlyBand s.bi.bandHeight s.bi.clockWave (listLaidOut n b w s)).keepsTable

/-! ### Every operation of the five blocks -/

/-- An operation of the five blocks moves the table and the pass by a run of their operations, or clears them
(R87). -/
theorem blockMove_table {s t : State} (move : BlockMove s t) :
    MovesTable s t ∨ (t.rt = RunnerTable.empty ∧ t.sa = { position := none }) := by
  cases move with
  | raceCleared => exact .inr ⟨rfl, rfl⟩
  | stays => exact .inl (keepsTable_refl s).moves
  | clockChanged => exact .inl (clockValueChanged_onlyList s).keepsTable.moves
  | clockRendered => exact .inl (renderIdleClock_onlyImage s).onlyList.keepsTable.moves
  | waveStored w entry =>
    exact .inl ((movesTable_of_steps (withWave_steps w entry s)).trans_keeps
      (storeWave_onlyImage w entry s).onlyList.keepsTable)
  | visited i position => exact .inl (visited_movesTable position)
  | @crossed reader timed bib x i t bibs slot =>
    obtain ⟨only, steps, -⟩ := crossingSlot_steps bibs slot
    obtain ⟨u, steps', table⟩ := crossSlot_movesTable (i := i) reader timed x t
    rw [show t.sa = s.sa by rw [only, State.withRt_sa]] at steps'
    exact .inl ⟨u, steps.trans steps', table⟩
  | filled fields found =>
    obtain ⟨u, step, eq⟩ := fillSlot_cases s.sa found (fillFields_name fields)
    rw [eq]
    exact .inl ((movesTable_of_steps (t := s.withRt u) (.single step)).trans_keeps (rerender_keepsTable _ _))
  | preloaded bibs fields absent slot =>
    refine .inl (movesTable_of_steps (.single (.allocated (enters_fresh absent bibs rfl rfl ?_) slot ?_ ?_)))
    · exact applyFill_name (fillFields_name fields) (nameSound_of_none rfl)
    · simp [applyFill]
    · exact fun k hk => nomatch hk
  | staleFilled => exact .inl (movesTable_of_steps (.single (.counted ..)))
  | fetched n => exact .inl (movesTable_of_steps (.single (.fetched ..)))
  | fillsTimedOut => exact .inl (movesTable_of_steps (.single (.timedOut ..)))
  | pinned i level room =>
    refine .inl (movesTable_of_steps (setPin_steps _ _ i _ fun k hk => ?_))
    exact Option.some.inj hk ▸ ⟨level, room⟩
  | pinnedNew bibs level absent room slot =>
    refine .inl (movesTable_of_steps (.single (.allocated
      (enters_fresh absent bibs rfl rfl (nameSound_of_none rfl)) slot ?_ fun k hk => ?_)))
    · simp [Record.fresh]
    · exact Option.some.inj hk ▸ ⟨level, room⟩
  | unpinned i => exact .inl (movesTable_of_steps (setPin_steps _ _ i none fun k hk => nomatch hk))
  | corrected i pass tick =>
    rcases correctSlot_cases i pass tick s s.sa with eq | ⟨u, step, eq⟩
    · rw [eq]
      exact .inl (keepsTable_refl s).moves
    · rw [eq]
      exact .inl ((movesTable_of_steps (t := s.withRt u) (.single step)).trans_keeps (rerender_keepsTable _ _))
  | flushed =>
    have step : TableStep (s.rt, s.sa) (s.rt.flush, s.sa) := .flushed s.rt s.sa
    refine .inl (movesTable_of_steps (t := s.withRt s.rt.flush) ?_)
    rw [State.withRt_rt, State.withRt_sa]
    exact .single step
  | messagePosted m k duration text => exact .inl (postChecked_onlyBand m k duration _ s).keepsTable.moves
  | messageDeleted m => exact .inl (deleteStored_onlyBand m s).keepsTable.moves
  | shownEnded => exact .inl (endAndSelect_onlyBand false s).keepsTable.moves
  | suspendedEnded gone => exact .inl (removeSuspended_onlyBand false gone s).keepsTable.moves
  | featureSetUp mode mask leaderLevel dwell idle =>
    exact .inl (onlyBand_of_withFc ((maskLevels_onlyBand _ _ _).trans (selectOrTest_onlyBand _))).keepsTable.moves
  | headTested => exact .inl (headTest_onlyList s).keepsTable.moves
  | lineExpired j due => exact .inl (emptyBuffer_onlyList j s).keepsTable.moves
  | bottomExpired j due =>
    exact .inl ((emptyBuffer_onlyList j s).trans (headTest_onlyList _)).keepsTable.moves
  | listTimed =>
    refine .inl (KeepsTable.moves ?_)
    exact KeepsTable.trans (t := s.withLs _) ⟨rfl, rfl⟩
      ((expireLines_onlyList _ _).trans (headTest_onlyList _)).keepsTable
  | laidOut w lines height fits => exact .inl (layoutChecked_keepsTable _ _ w s).moves
  | boardSet | windowSet => exact .inl ⟨s.rt, .refl, rfl⟩

/-! ### Every step -/

/-- What the operations of the table and the pass keep whatever the hold counts are, and what the empty table has,
every step keeps. -/
theorem step_keeps_table {P : RunnerTable × PassState → Prop} (h : ∀ {p q}, TableStep p q → P p → P q)
    (holds : ∀ t x holds, P (t, x) → P ({ t with holds }, x))
    (empty : P (RunnerTable.empty, { position := none })) {s t : State} (step : step s = .next t)
    (hs : P (s.rt, s.sa)) : P (t.rt, t.sa) := by
  refine step_keeps (P := fun s => P (s.rt, s.sa)) (fun _ _ hs => hs) (fun i s t hexec hs => ?_) (fun s hs => ?_)
    step hs
  · by_cases hp : i = .powerOn
    · subst hp
      cases hexec
      exact empty
    · by_cases hr : i = .resetAsserted
      · subst hr
        cases hexec
        exact empty
      · obtain ⟨u, v, before, move, after⟩ := exec_movesBlocks hexec hp hr
        obtain ⟨rtu, sau, -⟩ := blocks_eq_iff.mp before
        obtain ⟨rtt, sat, -⟩ := blocks_eq_iff.mp after
        rw [← rtu, ← sau] at hs
        rw [rtt, sat]
        rcases blockMove_table move with ⟨w, steps, table⟩ | ⟨table, pass⟩
        · rw [table]
          exact holds w _ _ (tableSteps_keep h steps hs)
        · rw [table, pass]
          exact empty
  · unfold passMillisecond
    split <;> exact hs

theorem emptyTable_slot (i : Slot) : RunnerTable.empty.slots[i] = none := by
  simp [RunnerTable.empty]

theorem emptyTable_order : RunnerTable.empty.order.Perm (List.finRange 256) := by
  simp only [RunnerTable.empty]
  exact List.reverse_perm _

theorem everyStepKeepsRecencySound : Claims.EveryStepKeepsRecencySound := fun _ _ hs step =>
  step_keeps_table (P := fun p => p.1.order.Perm (List.finRange 256)) tableStep_order (fun _ _ _ h => h)
    emptyTable_order step hs

theorem tableSound_empty : BibsSound RunnerTable.empty ∧ PinsSound RunnerTable.empty ∧
    FillsSound RunnerTable.empty := by
  refine ⟨⟨fun i j r q hr => ?_, fun i r hr => ?_⟩, ⟨?_, fun i r hr => ?_⟩,
    ⟨Nat.zero_le _, List.nodup_nil, fun e he => (nomatch he), fun i r hr => ?_⟩⟩
  case refine_3 =>
    have unpinned : RunnerTable.empty.isPinned = fun _ => false := funext fun i => by
      simp only [RunnerTable.isPinned, emptyTable_slot]
    simp [RunnerTable.pinnedCount, unpinned]
  all_goals
    rw [emptyTable_slot] at hr
    cases hr

theorem everyStepKeepsTableSound : Claims.EveryStepKeepsTableSound := fun _ _ hs step =>
  step_keeps_table (P := fun p => BibsSound p.1 ∧ PinsSound p.1 ∧ FillsSound p.1)
    (fun step h => ⟨tableStep_bibs step h.1, tableStep_pins step h.2.1, tableStep_fills step h.1 h.2.2⟩)
    (fun _ _ _ h => h) tableSound_empty step hs

theorem everyStepKeepsStaleSound : Claims.EveryStepKeepsStaleSound := fun _ _ hs step =>
  step_keeps_table (P := StaleBeyond) tableStep_stale (fun _ _ _ h => h)
    (fun i _ hr => nomatch (emptyTable_slot i).symm.trans hr) step hs

/-- Settles O37: every operation of the table and the pass keeps the recency order, the bibs, pins and fill
requests, and the STALE marks. -/
theorem everyStepKeepsTheTable : Obligations.EveryStepKeepsTheTable :=
  ⟨everyStepKeepsRecencySound, everyStepKeepsTableSound, everyStepKeepsStaleSound⟩

end Sys2Proof.Machine
end

section
/-! The references of list and band, as pairs of slot and bib, and the hold counts that count them (R66): creating a
reference takes a hold, releasing one gives it back. -/

namespace Sys2Proof.Machine

/-! ### References -/

/-- The references the list controller makes: its lines' and its queue's (R66). -/
def listRefs (l : ListState) : List (Slot × Nat) :=
  (l.buffers.flatMap fun b => (b.map fun line => (line.slot, line.bib)).toList) ++
    l.queue.map fun e => (e.slot, e.bib)

/-- The reference of a runner or leader feature (7.1). -/
def Feature.refOf (g : Feature) : Option (Slot × Nat) :=
  match g.ref with
  | .runner e => some (e.slot, e.bib)
  | .message _ => none

/-- The references of features (R66). -/
def featureRefs (l : List Feature) : List (Slot × Nat) := l.filterMap Feature.refOf

/-- The references of the runner queues (R66). -/
def queueRefs (queues : List (List FeatureEntry)) : List (Slot × Nat) :=
  queues.flatMap fun q => q.map fun e => (e.slot, e.bib)

/-- The references the feature controller makes: queued, shown and suspended (R66). -/
def bandRefs (f : FeatureState) : List (Slot × Nat) :=
  queueRefs f.queues.toList ++ featureRefs f.shownAndStack

theorem map_fst_listRefs (l : ListState) : (listRefs l).map Prod.fst = listSlots l := by
  simp only [listRefs, listSlots, List.map_append, List.map_flatMap, List.map_map,
    List.filterMap_eq_flatMap_toList]
  congr 1
  refine List.flatMap_congr fun b _ => ?_
  cases b <;> rfl

theorem slotOf_eq (g : Feature) : g.slotOf = g.refOf.map Prod.fst := by
  cases h : g.ref <;> simp [Feature.slotOf, Feature.refOf, h]

theorem map_fst_bandRefs (f : FeatureState) : (bandRefs f).map Prod.fst = featureSlots f := by
  simp only [bandRefs, featureSlots, queueRefs, featureRefs, List.map_append, List.map_flatMap, List.map_map,
    List.map_filterMap]
  congr 1
  exact List.filterMap_congr fun g _ => (slotOf_eq g).symm

theorem mem_listRefs {l : ListState} {p : Slot × Nat} :
    p ∈ listRefs l ↔ (∃ line, some line ∈ l.buffers ∧ (line.slot, line.bib) = p) ∨
      ∃ e ∈ l.queue, (e.slot, e.bib) = p := by
  simp [listRefs]

theorem refOf_eq_some {g : Feature} {p : Slot × Nat} :
    g.refOf = some p ↔ ∃ e, g.ref = .runner e ∧ (e.slot, e.bib) = p := by
  unfold Feature.refOf
  split
  · rename_i e he
    simp [he]
  · rename_i m hm
    simp [hm]

theorem mem_bandRefs {f : FeatureState} {p : Slot × Nat} :
    p ∈ bandRefs f ↔ (∃ k : Level, ∃ e ∈ f.queues[k], (e.slot, e.bib) = p) ∨
      ∃ g ∈ f.shownAndStack, ∃ e, g.ref = .runner e ∧ (e.slot, e.bib) = p := by
  simp only [bandRefs, queueRefs, featureRefs, List.mem_append, List.mem_flatMap, List.mem_map,
    List.mem_filterMap, refOf_eq_some]
  refine or_congr_left ⟨?_, ?_⟩
  · rintro ⟨q, hq, e, he, rfl⟩
    obtain ⟨k, hk, rfl⟩ := Vector.getElem_of_mem (Vector.mem_toList_iff.mp hq)
    exact ⟨⟨k, hk⟩, e, he, rfl⟩
  · rintro ⟨k, e, he, rfl⟩
    exact ⟨_, Vector.mem_toList_iff.mpr (Vector.getElem_mem k.isLt), e, he, rfl⟩

/-! ### The hold counts -/

/-- References `l` of the list and `b` of the band agree with a table: neither names a slot twice, the hold counts
count both, and every slot named holds its bib (R66, R120, R139). -/
structure RefsSound (t : RunnerTable) (l b : List (Slot × Nat)) : Prop where
  listed : (l.map Prod.fst).Nodup
  banded : (b.map Prod.fst).Nodup
  counted : ∀ i : Slot, t.holds[i] = (l.map Prod.fst).count i + (b.map Prod.fst).count i
  named : ∀ p, p ∈ l ∨ p ∈ b → HoldsBib t p.1 p.2

theorem RefsSound.swap {t : RunnerTable} {l b : List (Slot × Nat)} (h : RefsSound t l b) : RefsSound t b l :=
  ⟨h.banded, h.listed, fun i => (h.counted i).trans (Nat.add_comm ..), fun p hp => h.named p hp.symm⟩

theorem RefsSound.perm {t : RunnerTable} {l l' b b' : List (Slot × Nat)} (h : RefsSound t l b) (pl : l.Perm l')
    (pb : b.Perm b') : RefsSound t l' b' :=
  ⟨(pl.map _).nodup_iff.mp h.listed, (pb.map _).nodup_iff.mp h.banded,
    fun i => by rw [h.counted, (pl.map _).count_eq, (pb.map _).count_eq],
    fun p hp => h.named p (hp.imp pl.mem_iff.mpr pb.mem_iff.mpr)⟩

/-- A slot that a reference names is held. -/
theorem RefsSound.held {t : RunnerTable} {l b : List (Slot × Nat)} (h : RefsSound t l b) {p : Slot × Nat}
    (hp : p ∈ l ∨ p ∈ b) : 0 < t.holds[p.1] := by
  rw [h.counted]
  rcases hp with hp | hp
  · exact Nat.add_pos_left (List.count_pos_iff.mpr (List.mem_map_of_mem hp)) _
  · exact Nat.add_pos_right _ (List.count_pos_iff.mpr (List.mem_map_of_mem hp))

/-- References stay sound when the slots that are held keep their bibs and the hold counts stay. -/
theorem RefsSound.of_table {t u : RunnerTable} {l b : List (Slot × Nat)} (h : RefsSound t l b)
    (holds : u.holds = t.holds)
    (bibs : ∀ (i : Slot) (bib : Nat), 0 < t.holds[i] → HoldsBib t i bib → HoldsBib u i bib) : RefsSound u l b :=
  ⟨h.listed, h.banded, fun i => by rw [holds, h.counted], fun p hp => bibs _ _ (h.held hp) (h.named p hp)⟩

/-- A released reference gives its hold back (R66). -/
theorem RefsSound.release {t : RunnerTable} {p : Slot × Nat} {l b : List (Slot × Nat)}
    (h : RefsSound t (p :: l) b) : RefsSound (t.release p.1) l b where
  listed := (List.nodup_cons.mp h.listed).2
  banded := h.banded
  counted i := by
    have count := h.counted i
    rw [List.map_cons, List.count_cons] at count
    rw [RunnerTable.release_holds, count]
    by_cases same : i = p.1
    · simp [same]
    · simp [same, Ne.symm same]
  named q hq := h.named q (hq.imp_left (List.mem_cons_of_mem p))

/-- A created reference takes a hold (R66). -/
theorem RefsSound.hold {t : RunnerTable} {p : Slot × Nat} {l b : List (Slot × Nat)} (h : RefsSound t l b)
    (fresh : p.1 ∉ l.map Prod.fst) (bib : HoldsBib t p.1 p.2) : RefsSound (t.hold p.1) (p :: l) b where
  listed := List.nodup_cons.mpr ⟨fresh, h.listed⟩
  banded := h.banded
  counted i := by
    rw [RunnerTable.hold_holds, h.counted, List.map_cons, List.count_cons]
    by_cases same : i = p.1
    · simp [same]
      omega
    · simp [same, Ne.symm same]
  named q hq := by
    rcases hq with hq | hq
    · rcases List.mem_cons.mp hq with rfl | hq
      · exact bib
      · exact h.named q (.inl hq)
    · exact h.named q (.inr hq)

/-! ### References of a place that changes -/

/-- What a list of places names before and after one place changes. -/
theorem flatMap_set_perm {α β : Type} [DecidableEq β] (f : α → List β) {l : List α} {j : Nat} (x : α)
    (h : j < l.length) : (f l[j] ++ (l.set j x).flatMap f).Perm (f x ++ l.flatMap f) := by
  have whole : l = l.take j ++ l[j] :: l.drop (j + 1) := by
    rw [← List.drop_eq_getElem_cons h, List.take_append_drop]
  have before : l.flatMap f = (l.take j).flatMap f ++ (f l[j] ++ (l.drop (j + 1)).flatMap f) :=
    (congrArg (List.flatMap f) whole).trans (by rw [List.flatMap_append, List.flatMap_cons])
  have after : (l.set j x).flatMap f = (l.take j).flatMap f ++ (f x ++ (l.drop (j + 1)).flatMap f) := by
    rw [List.set_eq_take_append_cons_drop, if_pos h, List.flatMap_append, List.flatMap_cons]
  rw [before, after, List.perm_iff_count]
  intro b
  simp only [List.count_append]
  omega

end Sys2Proof.Machine
end

section
/-! What the board's lines are made of: every text the model renders holds characters a cell may hold, and every
line has 48 cells (R95 to R97, R134, R135, R140, R155). -/

namespace Sys2Proof.Machine

/-! ### Texts -/

/-- A text of characters a cell may hold (R155). -/
def TextSound (l : List Byte) : Prop := ∀ c ∈ l, charOk c

theorem textSound_append {l l' : List Byte} : TextSound (l ++ l') ↔ TextSound l ∧ TextSound l' :=
  List.forall_mem_append

theorem textSound_cons {c : Byte} {l : List Byte} : TextSound (c :: l) ↔ charOk c ∧ TextSound l :=
  List.forall_mem_cons

theorem textSound_nil : TextSound [] := fun _ h => nomatch h

theorem charOk_space : charOk 0x20#8 := ⟨by decide, by decide⟩
theorem charOk_colon : charOk 0x3A#8 := ⟨by decide, by decide⟩

theorem charOk_digit (n : Nat) : charOk (digit n) := by
  simp only [charOk, digit, BitVec.le_def, BitVec.toNat_ofNat]
  omega

theorem textSound_spaces (n : Nat) : TextSound (spaces n) := fun _ h => List.eq_of_mem_replicate h ▸ charOk_space

theorem textSound_twoDigits (n : Nat) : TextSound (twoDigits n) :=
  textSound_cons.mpr ⟨charOk_digit _, textSound_cons.mpr ⟨charOk_digit _, textSound_nil⟩⟩

theorem textSound_rightDecimal (w n : Nat) : TextSound (rightDecimal w n) := by
  induction w generalizing n with
  | zero => exact textSound_nil
  | succ w ih =>
    refine textSound_append.mpr ⟨?_, textSound_cons.mpr ⟨charOk_digit n, textSound_nil⟩⟩
    split
    · exact textSound_spaces w
    · exact ih _

theorem textSound_leftText (width : Nat) {text : List Byte} (h : TextSound text) :
    TextSound (leftText width text) :=
  textSound_append.mpr ⟨fun c hc => h c (List.mem_of_mem_take hc), textSound_spaces _⟩

theorem textSound_hms (seconds : Nat) : TextSound (hms seconds) := by
  simp only [hms, textSound_append, textSound_cons]
  exact ⟨⟨⟨⟨charOk_digit _, charOk_colon, textSound_nil⟩, textSound_twoDigits _⟩, charOk_colon, textSound_nil⟩,
    textSound_twoDigits _⟩

theorem textSound_absentTime : TextSound absentTime := by
  unfold TextSound charOk
  decide

theorem textSound_timeText (t : Option Nat) : TextSound (timeText t) := by
  cases t with
  | some t => exact textSound_hms _
  | none => exact textSound_absentTime

theorem textSound_paceText (p : Option Nat) : TextSound (paceText p) := by
  cases p with
  | some p =>
    simp only [paceText]
    split
    · simp only [textSound_append, textSound_cons]
      exact ⟨⟨charOk_space, charOk_digit _, charOk_colon, textSound_nil⟩, textSound_twoDigits _⟩
    · simp only [textSound_append, textSound_cons]
      exact ⟨⟨textSound_twoDigits _, charOk_colon, textSound_nil⟩, textSound_twoDigits _⟩
  | none =>
    unfold TextSound charOk
    decide

theorem textSound_bandClockText (clock : Nat) (gun : Option Nat) : TextSound (bandClockText clock gun) := by
  cases gun with
  | some g =>
    simp only [bandClockText]
    split
    · exact textSound_absentTime
    · exact textSound_hms _
  | none => exact textSound_absentTime

theorem textSound_passMark (pass : Option PassNo) : TextSound (passMark pass) := by
  rcases pass with _ | _ | _
  · exact textSound_spaces 3
  · exact textSound_spaces 3
  · unfold TextSound charOk
    decide

theorem textSound_leadText : TextSound leadText := by
  unfold TextSound charOk
  decide

theorem textSound_waveText (w : Wave) : TextSound (waveText w) := by
  simp only [waveText, textSound_cons]
  refine ⟨?_, ?_, ?_, ?_, charOk_space, charOk_digit _, textSound_nil⟩ <;> exact ⟨by decide, by decide⟩

theorem textSound_name {r : Record} (h : NameSound r) : TextSound (r.name.getD []) := by
  cases hn : r.name with
  | none => exact textSound_nil
  | some name => exact h name hn

theorem textSound_runnerText {r : Record} (h : NameSound r) (pass : Option PassNo) :
    TextSound (runnerText r pass) := by
  simp only [runnerText, textSound_append]
  exact ⟨⟨⟨⟨⟨⟨⟨⟨textSound_rightDecimal _ _, textSound_spaces _⟩, textSound_leftText _ (textSound_name h)⟩,
    textSound_spaces _⟩, textSound_timeText _⟩, textSound_spaces _⟩, textSound_paceText _⟩, textSound_spaces _⟩,
    textSound_timeText _⟩

theorem textSound_runnerLine {r : Record} (h : NameSound r) (pass : Option PassNo) :
    TextSound (runnerLine r pass) := by
  simp only [runnerLine, textSound_append]
  exact ⟨⟨textSound_runnerText h pass, textSound_spaces _⟩, textSound_passMark _⟩

/-! ### Lines -/

theorem rowSound_cellsOf (emphasis : Bool) {text : List Byte} (length : text.length = 48) (h : TextSound text) :
    RowSound (cellsOf emphasis text) := by
  refine ⟨by simpa [cellsOf] using length, fun c hc => ?_⟩
  obtain ⟨b, hb, rfl⟩ := List.mem_map.mp hc
  exact h b hb

theorem rowSound_spaces (emphasis : Bool) : RowSound (cellsOf emphasis (spaces 48)) :=
  rowSound_cellsOf emphasis (length_spaces 48) (textSound_spaces 48)

theorem blankLine_eq : blankLine = cellsOf false (spaces 48) := by
  simp [blankLine, cellsOf, spaces, Cell.blank]

theorem rowSound_blankLine : RowSound blankLine := blankLine_eq ▸ rowSound_spaces false

/-- Every name in the table is made of characters a cell may hold (R63). -/
def NamesSound (t : RunnerTable) : Prop := ∀ (i : Slot) (r : Record), t.slots[i] = some r → NameSound r

/-- Every line of a stored message is a text line (R122). -/
def TextsSound (f : FeatureState) : Prop :=
  ∀ (m : Fin 8) (msg : Message), f.messages[m] = some msg → ∀ line ∈ msg.lines, TextLineSound line

theorem nameSound_recordOf {t : RunnerTable} (h : NamesSound t) (slot : Slot) (bib : Nat) :
    NameSound (t.recordOf slot bib) := by
  unfold RunnerTable.recordOf
  cases hr : t.slots[slot] with
  | none => exact nameSound_of_none rfl
  | some r => exact h slot r hr

theorem rowSound_renderedLine {t : RunnerTable} (h : NamesSound t) (slot : Slot) (bib : Nat) (pass : PassNo)
    (shownAt : Nat) : RowSound (renderedLine t slot bib pass shownAt).cells :=
  rowSound_cellsOf false (length_runnerLine _ _) (textSound_runnerLine (nameSound_recordOf h slot bib) _)

theorem length_bandClockText (clock : Nat) (gun : Option Nat) : (bandClockText clock gun).length = 7 := by
  unfold bandClockText
  repeat' split
  all_goals rfl

theorem rowSound_idleLine0 (s : State) : RowSound (idleLine0 s) := by
  refine rowSound_cellsOf false ?_ ?_
  · simp [length_bandClockText, waveText]
  · simp only [textSound_append]
    exact ⟨⟨textSound_waveText _, textSound_spaces _⟩, textSound_bandClockText _ _⟩

theorem rowSound_featureRows {r : Record} (h : NameSound r) (height : Nat) (kind : FeatureKind) :
    ∀ row ∈ featureRows height r kind, RowSound row := by
  intro row mem
  unfold featureRows at mem
  split at mem
  · cases mem
  · obtain rfl := List.mem_singleton.mp mem
    cases kind with
    | leader =>
      refine rowSound_cellsOf true ?_ (textSound_append.mpr ⟨textSound_runnerText h _, textSound_leadText⟩)
      simp [featureSingleLine, length_runnerText, leadText]
    | runner => exact rowSound_cellsOf true (length_runnerLine _ _) (textSound_runnerLine h _)
  · rcases List.mem_cons.mp mem with rfl | mem
    · refine rowSound_cellsOf true ?_ ?_
      · cases kind <;> simp [featureLine0, length_leftText, leadText]
      · simp only [featureLine0, textSound_append]
        refine ⟨⟨⟨⟨textSound_rightDecimal _ _, textSound_spaces _⟩, textSound_leftText _ (textSound_name h)⟩,
          textSound_spaces _⟩, ?_⟩
        cases kind with
        | leader => exact textSound_leadText
        | runner => exact textSound_spaces _
    · rcases List.mem_cons.mp mem with rfl | mem
      · refine rowSound_cellsOf true (by simp [featureLine1]) ?_
        simp only [featureLine1, textSound_append]
        exact ⟨⟨⟨⟨⟨⟨⟨textSound_spaces _, textSound_timeText _⟩, textSound_spaces _⟩, textSound_paceText _⟩,
          textSound_spaces _⟩, textSound_timeText _⟩, textSound_spaces _⟩, textSound_passMark _⟩
      · exact List.eq_of_mem_replicate mem ▸ rowSound_spaces true

theorem rowSound_messageRows {lines : List (List Byte)} (h : ∀ line ∈ lines, TextLineSound line) (height : Nat) :
    ∀ row ∈ messageRows height lines, RowSound row := by
  intro row mem
  rcases List.mem_append.mp mem with mem | mem
  · obtain ⟨line, hl, rfl⟩ := List.mem_map.mp mem
    obtain ⟨length, text⟩ := h line (List.mem_of_mem_take hl)
    exact rowSound_cellsOf false length text
  · exact List.eq_of_mem_replicate mem ▸ rowSound_spaces false

/-- The band's lines, whatever it shows (R134, R135). -/
theorem rowSound_bandRows {s : State} (names : NamesSound s.rt) (texts : TextsSound s.fc) :
    ∀ row ∈ bandRows s, RowSound row := by
  intro row mem
  unfold bandRows at mem
  split at mem
  · unfold idleRows at mem
    split at mem
    · cases mem
    · rcases List.mem_cons.mp mem with rfl | mem
      · exact rowSound_idleLine0 s
      · exact List.eq_of_mem_replicate mem ▸ rowSound_spaces false
  · split at mem
    · rename_i m _
      refine rowSound_messageRows ?_ _ row mem
      unfold FeatureState.messageLines
      split
      · rename_i msg hm
        exact texts m msg hm
      · exact fun _ never => nomatch never
    · exact rowSound_featureRows (nameSound_recordOf names _ _) _ _ row mem

end Sys2Proof.Machine
end

section
/-! The list's side of the board at every operation of the list controller: its queue, its lines in ring order on
the image, and the holds its references take (R66, R139 to R149). -/

namespace Sys2Proof.Machine

/-! ### The board's shape and image -/

/-- The layout is in range, and the list has K = N - B buffers with the top offset among them (R139, R155). -/
structure ShapeSound (b : BoardState) (l : ListState) : Prop where
  lines : b.lineCount ≤ 12
  height : b.bandHeight ≤ 4
  fits : b.bandHeight < b.lineCount
  buffers : l.buffers.length = b.lineCount - b.bandHeight
  top : l.top < l.buffers.length

/-- The image has N lines of 48 cells, and below the band it shows the list (R139, R155). -/
structure ImageSound (b : BoardState) (l : ListState) : Prop where
  length : b.image.length = b.lineCount
  rows : ∀ row ∈ b.image, RowSound row
  list : b.image.drop b.bandHeight = listRows l

/-- The cells of every SHOWN line make a board line (R139). -/
def LinesSound (l : ListState) : Prop := ∀ line, some line ∈ l.buffers → RowSound line.cells

/-- The list's side of a sound state, with the references `b` that the band makes. -/
structure ListSide (b : List (Slot × Nat)) (s : State) : Prop where
  queue : s.ls.queue.length ≤ 64
  refs : RefsSound s.rt (listRefs s.ls) b
  shape : ShapeSound s.bi s.ls
  image : ImageSound s.bi s.ls
  lines : LinesSound s.ls
  names : NamesSound s.rt

/-! ### Writing the image (R139, R155) -/

theorem rowSound_bufferCells {l : ListState} (h : LinesSound l) {x : Option ListLine}
    (hx : x = none ∨ x ∈ l.buffers) : RowSound (bufferCells x) := by
  cases x with
  | none => exact rowSound_blankLine
  | some line => exact h line (hx.resolve_left (Option.some_ne_none line))

theorem getD_none_or_mem (l : List (Option ListLine)) (j : Nat) : l.getD j none = none ∨ l.getD j none ∈ l := by
  rcases Nat.lt_or_ge j l.length with lt | ge
  · rw [List.getD_eq_getElem _ _ lt]
    exact .inr (List.getElem_mem lt)
  · exact .inl (List.getD_eq_default _ _ ge)

theorem rowSound_listRows {l : ListState} (h : LinesSound l) : ∀ row ∈ listRows l, RowSound row := by
  intro row mem
  obtain ⟨k, -, rfl⟩ := List.mem_map.mp mem
  exact rowSound_bufferCells h (getD_none_or_mem _ _)

/-- Lines written on the board keep its number of lines and the shape of each. -/
theorem writeRows_sound {first : Nat} {rows image : List (List Cell)} (fits : first + rows.length ≤ image.length)
    (hrows : ∀ row ∈ rows, RowSound row) (himage : ∀ row ∈ image, RowSound row) :
    (writeRows first rows image).length = image.length ∧
      ∀ row ∈ writeRows first rows image, RowSound row :=
  ⟨writeRows_length fits, fun row mem => (mem_writeRows mem).elim (hrows row) (himage row)⟩

/-- Lines written within the band leave the list's lines (R134). -/
theorem imageSound_band {b : BoardState} {l : ListState} {rows : List (List Cell)} (shape : ShapeSound b l)
    (h : ImageSound b l) (fits : rows.length ≤ b.bandHeight) (hrows : ∀ row ∈ rows, RowSound row) :
    ImageSound { b with image := writeRows 0 rows b.image } l := by
  have := shape.fits
  have room : 0 + rows.length ≤ b.image.length := by
    rw [h.length]
    omega
  obtain ⟨length, sound⟩ := writeRows_sound room hrows h.rows
  refine ⟨length.trans h.length, sound, ?_⟩
  show (writeRows 0 rows b.image).drop b.bandHeight = _
  rw [writeRows_zero, List.drop_append, List.drop_eq_nil_of_le fits, List.nil_append, List.drop_drop,
    Nat.add_sub_cancel' fits, h.list]

/-- The list written whole stands below the band (R139). -/
theorem imageSound_list {b : BoardState} {l : ListState} (shape : ShapeSound b l) (lines : LinesSound l)
    (length : b.image.length = b.lineCount) (hrows : ∀ row ∈ b.image, RowSound row) :
    ImageSound { b with image := writeRows b.bandHeight (listRows l) b.image } l := by
  have := shape.fits
  have size : (listRows l).length = b.lineCount - b.bandHeight := (listRows_length l).trans shape.buffers
  obtain ⟨same, sound⟩ := writeRows_sound (first := b.bandHeight) (rows := listRows l) (image := b.image)
    (by omega) (rowSound_listRows lines) hrows
  refine ⟨same.trans length, sound, ?_⟩
  show (writeRows b.bandHeight (listRows l) b.image).drop b.bandHeight = _
  rw [writeRows, List.drop_eq_nil_of_le (i := b.bandHeight + (listRows l).length) (by omega), List.append_nil,
    List.drop_left' (by rw [List.length_take]; omega)]

theorem listRows_getElem? {l : ListState} {k : Nat} (h : k < l.buffers.length) :
    (listRows l)[k]? = some (bufferCells (l.buffers.getD ((l.top + k) % l.buffers.length) none)) := by
  rw [listRows, ListState.size, List.getElem?_map, List.getElem?_range h]
  rfl

/-- The buffer on the list line that shows buffer `j` is `j` (R139). -/
theorem bufferAt_of_listLine {top size j : Nat} (ht : top < size) (hj : j < size) :
    (top + (j + size - top) % size) % size = j := by
  rcases Nat.lt_or_ge j top with h | h
  · rw [Nat.mod_eq_of_lt (by omega : j + size - top < size), show top + (j + size - top) = j + size by omega,
      Nat.add_mod_right, Nat.mod_eq_of_lt hj]
  · rw [show j + size - top = (j - top) + size by omega, Nat.add_mod_right,
      Nat.mod_eq_of_lt (by omega : j - top < size), show top + (j - top) = j by omega, Nat.mod_eq_of_lt hj]

/-- One buffer changed and its line written: the image shows the list again (R139, R141, R149). -/
theorem imageSound_buffer {b : BoardState} {l : ListState} {j : Nat} {x : Option ListLine}
    (shape : ShapeSound b l) (h : ImageSound b l) (hj : j < l.buffers.length) (hx : RowSound (bufferCells x)) :
    ImageSound
      { b with
        image := writeRows (b.bandHeight + (j + l.buffers.length - l.top) % l.buffers.length) [bufferCells x]
          b.image }
      { l with buffers := l.buffers.set j x } := by
  have fits := shape.fits
  have size := shape.buffers
  have top := shape.top
  have hline : (j + l.buffers.length - l.top) % l.buffers.length < l.buffers.length := Nat.mod_lt _ (by omega)
  have room : b.bandHeight + (j + l.buffers.length - l.top) % l.buffers.length + [bufferCells x].length ≤
      b.image.length := by
    rw [List.length_singleton, h.length]
    omega
  obtain ⟨length, sound⟩ := writeRows_sound room (fun row mem => List.mem_singleton.mp mem ▸ hx) h.rows
  refine ⟨length.trans h.length, sound, List.ext_getElem? fun k => ?_⟩
  have old : b.image[b.bandHeight + k]? = (listRows l)[k]? := by rw [← h.list, List.getElem?_drop]
  show ((writeRows _ [bufferCells x] b.image).drop b.bandHeight)[k]? = _
  rw [List.getElem?_drop, writeRows_getElem? room, List.length_singleton]
  rcases Nat.lt_or_ge k l.buffers.length with hk | hk
  · rw [listRows_getElem? (by simpa using hk)]
    simp only [List.length_set]
    by_cases here : k = (j + l.buffers.length - l.top) % l.buffers.length
    · have shows : (l.top + k) % l.buffers.length = j := here ▸ bufferAt_of_listLine top hj
      rw [if_pos (by omega), shows, List.getD_eq_getElem _ _ (by simpa using hj), List.getElem_set_self]
      simp [here]
    · have shows : (l.top + k) % l.buffers.length ≠ j := fun same =>
        here ((listLine_of_bufferAt top hk).symm.trans (same ▸ rfl))
      rw [if_neg (by omega), old, listRows_getElem? hk, List.getD_eq_getElem?_getD, List.getD_eq_getElem?_getD,
        List.getElem?_set_ne shows.symm]
  · rw [if_neg (by omega), old, List.getElem?_eq_none (by simpa [listRows_length] using hk),
      List.getElem?_eq_none (by simpa [listRows_length] using hk)]

/-! ### References of the list's parts -/

/-- The reference of a buffer, if it is SHOWN (R139). -/
def lineRefs (x : Option ListLine) : List (Slot × Nat) := (x.map fun line => (line.slot, line.bib)).toList

theorem listRefs_eq (l : ListState) :
    listRefs l = l.buffers.flatMap lineRefs ++ l.queue.map fun e => (e.slot, e.bib) := rfl

/-- A buffer that changes: what it named before leaves, what it names now comes. -/
theorem listRefs_set {l : ListState} {j : Nat} (x : Option ListLine) (h : j < l.buffers.length) :
    (lineRefs (l.buffers.getD j none) ++ listRefs { l with buffers := l.buffers.set j x }).Perm
      (lineRefs x ++ listRefs l) := by
  rw [List.getD_eq_getElem _ _ h, listRefs_eq, listRefs_eq, ← List.append_assoc, ← List.append_assoc]
  exact (flatMap_set_perm lineRefs x h).append_right _

theorem RefsSound.releaseLine {t : RunnerTable} {x : Option ListLine} {l b : List (Slot × Nat)}
    (h : RefsSound t (lineRefs x ++ l) b) : RefsSound (releaseLine t x) l b := by
  cases x with
  | none => exact h
  | some line => exact h.release

theorem RefsSound.foldl_releaseLine {buffers : List (Option ListLine)} {t : RunnerTable}
    {l b : List (Slot × Nat)} (h : RefsSound t (buffers.flatMap lineRefs ++ l) b) :
    RefsSound (buffers.foldl Machine.releaseLine t) l b := by
  induction buffers generalizing t with
  | nil => exact h
  | cons x buffers ih =>
    rw [List.flatMap_cons, List.append_assoc] at h
    exact ih h.releaseLine

theorem releaseLine_slots (t : RunnerTable) (x : Option ListLine) : (releaseLine t x).slots = t.slots := by
  cases x <;> rfl

/-- The head of the queue names first, up to order. -/
theorem listRefs_head {l : ListState} {e : QueueEntry} {rest : List QueueEntry} (h : l.queue = e :: rest) :
    (listRefs l).Perm ((e.slot, e.bib) :: listRefs { l with queue := rest }) := by
  rw [listRefs_eq, listRefs_eq, h]
  exact List.perm_middle

theorem listRefs_tail {l : ListState} (e : QueueEntry) :
    (listRefs { l with queue := l.queue ++ [e] }).Perm ((e.slot, e.bib) :: listRefs l) := by
  rw [listRefs_eq, listRefs_eq, List.map_append, ← List.append_assoc]
  exact List.perm_append_singleton _ _

/-! ### The list controller's single steps -/

/-- Behind the head of a queue is room for one more. -/
theorem ListSide.rest {b : List (Slot × Nat)} {e : QueueEntry} {rest : List QueueEntry} {s : State}
    (h : ListSide b s) (head : s.ls.queue = e :: rest) : rest.length < 64 := by
  have := h.queue
  rwa [head] at this

theorem dropHead_listSide {b : List (Slot × Nat)} {e : QueueEntry} {rest : List QueueEntry} {s : State}
    (h : ListSide b s) (head : s.ls.queue = e :: rest) : ListSide b (dropHead e rest s) where
  queue := (h.rest head).le
  refs := (h.refs.perm (listRefs_head head) (.refl b)).release
  shape := ⟨h.shape.lines, h.shape.height, h.shape.fits, h.shape.buffers, h.shape.top⟩
  image := ⟨h.image.length, h.image.rows, h.image.list⟩
  lines := h.lines
  names := h.names

theorem bottom_lt {l : ListState} (h : l.top < l.buffers.length) : l.bottom < l.buffers.length :=
  Nat.mod_lt _ (Nat.zero_lt_of_lt h)

theorem linesSound_set {l : ListState} (h : LinesSound l) (j : Nat) {x : Option ListLine}
    (hx : ∀ line ∈ x, RowSound line.cells) : LinesSound { l with buffers := l.buffers.set j x } := fun line mem =>
  (List.mem_or_eq_of_mem_set mem).elim (h line) fun same => hx line (Option.mem_def.mpr same.symm)

theorem insertHead_listSide {b : List (Slot × Nat)} {e : QueueEntry} {rest : List QueueEntry} {s : State}
    (h : ListSide b s) (head : s.ls.queue = e :: rest) : ListSide b (insertHead e rest s) := by
  have hj := bottom_lt h.shape.top
  have names : NamesSound (releaseLine s.rt (s.ls.buffers.getD s.ls.bottom none)) := fun i r hr =>
    h.names i r (releaseLine_slots s.rt _ ▸ hr)
  have lines := linesSound_set h.lines s.ls.bottom (x := some (renderedLine
    (releaseLine s.rt (s.ls.buffers.getD s.ls.bottom none)) e.slot e.bib e.pass s.localTime)) fun line hl =>
      Option.some.inj hl ▸ rowSound_renderedLine names ..
  have shape : ShapeSound s.bi (insertHead e rest s).ls :=
    ⟨h.shape.lines, h.shape.height, h.shape.fits, (List.length_set ..).trans h.shape.buffers,
      hj.trans_eq (List.length_set ..).symm⟩
  refine ⟨(h.rest head).le, ?_, ⟨h.shape.lines, h.shape.height, h.shape.fits, shape.buffers, shape.top⟩,
    imageSound_list shape lines h.image.length h.image.rows, lines, names⟩
  have moved := listRefs_set (l := { s.ls with queue := rest }) (some (renderedLine
    (releaseLine s.rt (s.ls.buffers.getD s.ls.bottom none)) e.slot e.bib e.pass s.localTime)) hj
  exact (h.refs.perm ((listRefs_head head).trans moved.symm) (.refl b)).releaseLine

theorem writeBuffer_listSide {b : List (Slot × Nat)} {j : Nat} {x : Option ListLine} {t : RunnerTable} {s : State}
    (h : ListSide b s) (hj : j < s.ls.buffers.length) (hx : ∀ line ∈ x, RowSound line.cells)
    (refs : RefsSound t (listRefs { s.ls with buffers := s.ls.buffers.set j x }) b) (names : NamesSound t) :
    ListSide b (writeBuffer j ((s.withRt t).withLs { s.ls with buffers := s.ls.buffers.set j x })) := by
  have cells : RowSound (bufferCells x) := by
    cases x with
    | none => exact rowSound_blankLine
    | some line => exact hx line rfl
  have image := imageSound_buffer h.shape h.image hj cells
  refine ⟨h.queue, refs, ?_, ?_, linesSound_set h.lines j hx, names⟩
  · exact ⟨h.shape.lines, h.shape.height, h.shape.fits, (List.length_set ..).trans h.shape.buffers,
      h.shape.top.trans_eq (List.length_set ..).symm⟩
  · have size : ListState.size { s.ls with buffers := s.ls.buffers.set j x } = s.ls.buffers.length :=
      List.length_set ..
    have shown : (s.ls.buffers.set j x).getD j none = x := by
      rw [List.getD_eq_getElem _ _ (by simpa using hj), List.getElem_set_self]
    simp only [writeBuffer, State.writeLines, State.withLs_ls, State.withLs_bi, State.withRt_bi, State.withBi_bi,
      State.withBi_ls, size, shown]
    exact image

theorem emptyBuffer_listSide {b : List (Slot × Nat)} {j : Nat} {s : State} (h : ListSide b s)
    (hj : j < s.ls.buffers.length) : ListSide b (emptyBuffer j s) :=
  writeBuffer_listSide h hj (fun _ never => nomatch never)
    (h.refs.perm (listRefs_set none hj).symm (.refl b)).releaseLine
    fun i r hr => h.names i r (releaseLine_slots s.rt _ ▸ hr)

theorem rerenderBuffer_listSide {b : List (Slot × Nat)} {j : Nat} {line : ListLine} {s : State}
    (h : ListSide b s) (shown : s.ls.buffers.getD j none = some line) (pass : PassNo) :
    ListSide b (rerenderBuffer j line pass s) := by
  have hj : j < s.ls.buffers.length := by
    by_contra beyond
    rw [List.getD_eq_default _ _ (Nat.le_of_not_lt beyond)] at shown
    cases shown
  have same := listRefs_set (l := s.ls) (some (renderedLine s.rt line.slot line.bib pass line.shownAt)) hj
  rw [shown] at same
  exact writeBuffer_listSide (t := s.rt) h hj (fun _ hl => Option.some.inj hl ▸ rowSound_renderedLine h.names ..)
    (h.refs.perm ((List.perm_append_left_iff _).mp same).symm (.refl b)) h.names

theorem rerenderLine_listSide {b : List (Slot × Nat)} (i : Slot) {s : State} (h : ListSide b s) :
    ListSide b (rerenderLine i s) := by
  unfold rerenderLine
  split
  · split
    · rename_i shown
      exact rerenderBuffer_listSide h shown _
    · exact h
  · exact h

/-! ### The head test, expiries and arrivals (R144 to R149) -/

theorem headTestSteps_listSide {b : List (Slot × Nat)} (n : Nat) {s : State} (h : ListSide b s) :
    ListSide b (headTestSteps n s) := by
  induction n generalizing s with
  | zero => exact h
  | succ n ih =>
    unfold headTestSteps
    split
    · exact h
    · rename_i head
      split
      · exact ih (dropHead_listSide h head)
      · split
        · exact ih (insertHead_listSide h head)
        · exact h

theorem headTest_listSide {b : List (Slot × Nat)} {s : State} (h : ListSide b s) : ListSide b (headTest s) :=
  headTestSteps_listSide _ h

/-- A buffer that has expired is one of the list's. -/
theorem expired_lt {l : ListState} {now j : Nat} (h : l.expired now j = true) : j < l.buffers.length := by
  by_contra beyond
  unfold ListState.expired at h
  rw [List.getD_eq_default _ _ (Nat.le_of_not_lt beyond)] at h
  cases h

theorem expireLines_listSide {b : List (Slot × Nat)} (n : Nat) {s : State} (h : ListSide b s) :
    ListSide b (expireLines n s) := by
  induction n with
  | zero => exact h
  | succ n ih =>
    unfold expireLines
    dsimp only
    split
    · rename_i due
      exact emptyBuffer_listSide ih (expired_lt due)
    · exact ih

/-- An entry of a slot the list does not name joins the tail of a queue with room, with a hold (R144). -/
theorem enqueue_listSide {b : List (Slot × Nat)} {e : QueueEntry} {s : State} (h : ListSide b s)
    (room : s.ls.queue.length < 64) (fresh : e.slot ∉ (listRefs s.ls).map Prod.fst)
    (bib : HoldsBib s.rt e.slot e.bib) :
    ListSide b ((s.withLs { s.ls with queue := s.ls.queue ++ [e] }).withRt (s.rt.hold e.slot)) where
  queue := by simpa using room
  refs := (h.refs.hold (p := (e.slot, e.bib)) fresh bib).perm (listRefs_tail e).symm (.refl b)
  shape := ⟨h.shape.lines, h.shape.height, h.shape.fits, h.shape.buffers, h.shape.top⟩
  image := ⟨h.image.length, h.image.rows, h.image.list⟩
  lines := h.lines
  names := h.names

/-- Entries given another pass and tick name what they named (R144). -/
theorem requeue_listSide {b : List (Slot × Nat)} {f : QueueEntry → QueueEntry} {s : State} (h : ListSide b s)
    (same : ∀ e, (f e).slot = e.slot ∧ (f e).bib = e.bib) :
    ListSide b (s.withLs { s.ls with queue := s.ls.queue.map f }) where
  queue := (List.length_map ..).trans_le h.queue
  refs := by
    have refs : listRefs { s.ls with queue := s.ls.queue.map f } = listRefs s.ls := by
      rw [listRefs_eq, listRefs_eq, List.map_map]
      refine congrArg _ (List.map_congr_left fun e _ => ?_)
      obtain ⟨slot, bib⟩ := same e
      simp [slot, bib]
    exact h.refs.perm (.of_eq refs.symm) (.refl b)
  shape := ⟨h.shape.lines, h.shape.height, h.shape.fits, h.shape.buffers, h.shape.top⟩
  image := ⟨h.image.length, h.image.rows, h.image.list⟩
  lines := h.lines
  names := h.names

/-- The list names a slot by one of its lines or by an entry of its queue. -/
theorem not_mem_listRefs {l : ListState} {i : Slot} (line : l.lineOf i = none)
    (queue : (l.queue.any fun e => e.slot == i) = false) : i ∉ (listRefs l).map Prod.fst := by
  intro mem
  obtain ⟨p, hp, rfl⟩ := List.mem_map.mp mem
  rcases mem_listRefs.mp hp with ⟨x, hx, rfl⟩ | ⟨e, he, rfl⟩
  · exact lineOf_none line x hx rfl
  · simpa using List.any_eq_false.mp queue e he

theorem arrive_listSide {b : List (Slot × Nat)} {slot : Slot} {bib : Nat} (pass : PassNo) (tick : Nat) {s : State}
    (h : ListSide b s) (names : HoldsBib s.rt slot bib) : ListSide b (arrive slot bib pass tick s) := by
  unfold arrive
  split
  · split
    · rename_i shown
      exact rerenderBuffer_listSide h shown pass
    · exact h
  · rename_i line
    dsimp only
    split
    · have queued := requeue_listSide (f := fun e => if e.slot = slot then { e with pass, tick } else e) h
        fun e => by split <;> exact ⟨rfl, rfl⟩
      split
      · split
        · exact headTest_listSide queued
        · exact queued
      · exact queued
    · rename_i absent
      have fresh := not_mem_listRefs line (by simpa using absent)
      split
      · rename_i empty
        refine headTest_listSide ?_
        have entered := enqueue_listSide (e := { slot, bib, pass, tick }) h (by simp [empty]) fresh names
        rwa [empty] at entered
      · rename_i e rest head
        split
        · refine headTest_listSide (enqueue_listSide (e := { slot, bib, pass, tick })
            (dropHead_listSide h head) (h.rest head) (fun mem => fresh ?_) names)
          exact List.map_subset Prod.fst (fun p hp => (listRefs_head head).symm.subset
            (List.mem_cons_of_mem _ hp)) mem
        · rename_i room
          exact enqueue_listSide (e := { slot, bib, pass, tick }) h (Nat.lt_of_not_le room) fresh names

/-! ### The list emptied for another layout (R152) -/

/-- A list written whole on a board of a sound shape, whatever the board showed before. -/
theorem writeList_listSide {b : List (Slot × Nat)} {s : State} (queue : s.ls.queue.length ≤ 64)
    (refs : RefsSound s.rt (listRefs s.ls) b) (names : NamesSound s.rt) (shape : ShapeSound s.bi s.ls)
    (lines : LinesSound s.ls) (length : s.bi.image.length = s.bi.lineCount)
    (rows : ∀ row ∈ s.bi.image, RowSound row) : ListSide b (writeList s) :=
  ⟨queue, refs, ⟨shape.lines, shape.height, shape.fits, shape.buffers, shape.top⟩,
    imageSound_list shape lines length rows, lines, names⟩

theorem linesSound_of_empty {l : ListState} {n : Nat} (empty : l.buffers = List.replicate n none) :
    LinesSound l := fun line mem => by
  rw [empty] at mem
  cases List.eq_of_mem_replicate mem

theorem shapeSound_of_empty {b : BoardState} {l : ListState} (lines : b.lineCount ≤ 12)
    (height : b.bandHeight ≤ 4) (fits : b.bandHeight < b.lineCount)
    (empty : l.buffers = List.replicate (b.lineCount - b.bandHeight) none) (top : l.top = 0) : ShapeSound b l := by
  have size : l.buffers.length = b.lineCount - b.bandHeight := by rw [empty, List.length_replicate]
  exact ⟨lines, height, fits, size, by omega⟩

/-- Empty buffers name no slot. -/
theorem listRefs_of_empty {l : ListState} {n : Nat} (empty : l.buffers = List.replicate n none) :
    listRefs l = l.queue.map fun e => (e.slot, e.bib) := by
  have none : l.buffers.flatMap lineRefs = [] := List.flatMap_eq_nil_iff.mpr fun x hx =>
    List.eq_of_mem_replicate (empty ▸ hx) ▸ rfl
  rw [listRefs_eq, none, List.nil_append]

/-- A list emptied and written whole on a board of a sound shape, whatever the board showed before. -/
theorem writeList_emptyList_listSide {b : List (Slot × Nat)} {s : State} (queue : s.ls.queue.length ≤ 64)
    (refs : RefsSound s.rt (listRefs s.ls) b) (names : NamesSound s.rt) (lines : s.bi.lineCount ≤ 12)
    (height : s.bi.bandHeight ≤ 4) (fits : s.bi.bandHeight < s.bi.lineCount)
    (length : s.bi.image.length = s.bi.lineCount) (rows : ∀ row ∈ s.bi.image, RowSound row) :
    ListSide b (writeList (emptyList (s.bi.lineCount - s.bi.bandHeight) s)) := by
  refine writeList_listSide (s := emptyList (s.bi.lineCount - s.bi.bandHeight) s) queue ?_ (fun i r hr => ?_)
    (shapeSound_of_empty lines height fits rfl rfl) (linesSound_of_empty rfl) length rows
  · rw [listRefs_of_empty rfl]
    exact RefsSound.foldl_releaseLine (listRefs_eq s.ls ▸ refs)
  · have slots : (s.ls.buffers.foldl releaseLine s.rt).slots = s.rt.slots := by rw [foldl_releaseLine_eq]
    exact names i r (slots ▸ hr)

end Sys2Proof.Machine
end

section
/-! The feature controller at every selection, preemption and ending: levels, messages, queues and references stay
sound (R119 to R130). Everything here is about the feature controller alone. -/

namespace Sys2Proof.Machine

/-! ### A sound feature controller -/

/-- The feature controller is sound, with the features `gone` taken off the band whose endings are still to be
finished (R130): their messages are not settled yet, and no other feature refers to them. -/
structure BandSide (gone : List Feature) (f : FeatureState) : Prop where
  levels : f.shownAndStack.Pairwise fun g h => g.level < h.level
  rotating : f.mode = .rotating → f.stack.length ≤ 1 ∧ (f.stack ≠ [] → ∀ g ∈ f.shown, g.level = 0)
  settled : ∀ (m : Fin 8) (msg : Message), f.messages[m] = some msg → m ∉ gone.filterMap Feature.messageOf →
    MessageSound f m msg
  stored : ∀ g ∈ f.shownAndStack, ∀ m ∈ g.messageOf, f.messages[m].isSome
  distinct : ((gone ++ f.shownAndStack).filterMap Feature.messageOf).Nodup
  rotation : f.rotation.Perm [1, 2, 3, 4, 5, 6, 7]
  posting : f.posting.Perm (List.finRange 8)
  queues : ∀ k : Level, f.queues[k].length ≤ 4
  texts : TextsSound f

/-- Nothing is shown on a band of no lines (R119). -/
def IdleSound (s : State) : Prop := s.bi.bandHeight = 0 → s.fc.shown = none

theorem bandSound_iff (s : State) :
    (BandSound s ∧ (∀ k : Level, s.fc.queues[k].length ≤ 4) ∧ TextsSound s.fc) ↔
      BandSide [] s.fc ∧ IdleSound s := by
  constructor
  · rintro ⟨⟨levels, rotating, idle, settled, stored, distinct, rotation, posting⟩, queues, texts⟩
    exact ⟨⟨levels, rotating, fun m msg h _ => settled m msg h, stored, distinct, rotation, posting, queues, texts⟩,
      idle⟩
  · rintro ⟨⟨levels, rotating, settled, stored, distinct, rotation, posting, queues, texts⟩, idle⟩
    exact ⟨⟨levels, rotating, idle, fun m msg h => settled m msg h List.not_mem_nil, stored, distinct, rotation,
      posting⟩, queues, texts⟩

theorem messageOf_eq_some {g : Feature} {m : Fin 8} : g.messageOf = some m ↔ g.ref = .message m := by
  unfold Feature.messageOf
  split
  · rename_i n hn
    simp [hn]
  · rename_i e he
    simp [he]

theorem shownAndStack_of_some {f : FeatureState} {g : Feature} (h : f.shown = some g) :
    f.shownAndStack = g :: f.stack := by
  simp [FeatureState.shownAndStack, h]

theorem shownAndStack_of_none {f : FeatureState} (h : f.shown = none) : f.shownAndStack = f.stack := by
  simp [FeatureState.shownAndStack, h]

/-- No other feature of a sound band refers to the message of one on it. -/
theorem ref_ne_of_distinct {g : Feature} {l : List Feature} {m : Fin 8}
    (distinct : ((g :: l).filterMap Feature.messageOf).Nodup) (hg : g.ref = .message m) :
    ∀ h ∈ l, h.ref ≠ .message m := by
  intro h hl same
  rw [List.filterMap_cons_some (messageOf_eq_some.mpr hg), List.nodup_cons] at distinct
  exact distinct.1 (List.mem_filterMap.mpr ⟨h, hl, messageOf_eq_some.mpr same⟩)

/-! ### Messages marked (R122) -/

theorem markRef_eq (f : FeatureState) (r : FeatureRef) (st : MessageState) :
    f.markRef r st = { f with messages := (f.markRef r st).messages } := by
  cases r with
  | message m => exact markMessage_eq f m st
  | runner e => rfl

theorem markRef_messages (f : FeatureState) (r : FeatureRef) (st : MessageState) (m : Fin 8) :
    (f.markRef r st).messages[m] =
      if r = .message m then f.messages[m].map fun msg => { msg with state := st } else f.messages[m] := by
  cases r with
  | message n =>
    rw [FeatureState.markRef, markMessage_messages]
    simp only [FeatureRef.message.injEq, eq_comm]
  | runner e => rfl

theorem markRef_texts {f : FeatureState} (h : TextsSound f) (r : FeatureRef) (st : MessageState) :
    TextsSound (f.markRef r st) := by
  intro m msg hm
  rw [markRef_messages] at hm
  split at hm
  · obtain ⟨old, hold, rfl⟩ := Option.map_eq_some_iff.mp hm
    exact h m old hold
  · exact h m msg hm

theorem markRef_isSome (f : FeatureState) (r : FeatureRef) (st : MessageState) (m : Fin 8) :
    (f.markRef r st).messages[m].isSome = f.messages[m].isSome := by
  rw [markRef_messages]
  split
  · exact Option.isSome_map
  · rfl

/-! ### The shown feature suspended, the top of the stack resumed (R127, R128) -/

theorem pushShown_of_some {f : FeatureState} {g : Feature} (h : f.shown = some g) :
    f.pushShown =
      { f with messages := (f.markRef g.ref .suspended).messages, shown := none, stack := g :: f.stack } := by
  simp only [FeatureState.pushShown, h]
  rw [markRef_eq]

theorem resume_eq (f : FeatureState) (g : Feature) (rest : List Feature) :
    f.resume g rest =
      { f with messages := (f.markRef g.ref .shown).messages, shown := some g, stack := rest } := by
  rw [FeatureState.resume, markRef_eq]

/-- A marked message is as it is marked, where the one marked has the place its mark says and the others have the
places they had. -/
theorem settled_of_mark {f u : FeatureState} {r : FeatureRef} {st : MessageState}
    (h : ∀ (m : Fin 8) (msg : Message), f.messages[m] = some msg → MessageSound f m msg)
    (messages : u.messages = (f.markRef r st).messages)
    (marked : ∀ m, r = .message m → ((st = .shown ↔ ∃ g ∈ u.shown, g.ref = .message m) ∧
      (st = .suspended ↔ ∃ g ∈ u.stack, g.ref = .message m)))
    (others : ∀ m, r ≠ .message m → (((∃ g ∈ u.shown, g.ref = .message m) ↔ ∃ g ∈ f.shown, g.ref = .message m) ∧
      ((∃ g ∈ u.stack, g.ref = .message m) ↔ ∃ g ∈ f.stack, g.ref = .message m)))
    (m : Fin 8) (msg : Message) (hm : u.messages[m] = some msg) : MessageSound u m msg := by
  rw [messages, markRef_messages] at hm
  split at hm
  · rename_i here
    obtain ⟨old, -, rfl⟩ := Option.map_eq_some_iff.mp hm
    exact marked m here
  · rename_i other
    obtain ⟨shown, suspended⟩ := h m msg hm
    obtain ⟨sameShown, sameStack⟩ := others m other
    exact ⟨shown.trans sameShown.symm, suspended.trans sameStack.symm⟩

theorem pushShown_bandSide {f : FeatureState} {g : Feature} (h : BandSide [] f) (shown : f.shown = some g)
    (level : f.mode = .rotating → g.level ≠ 0) : BandSide [] f.pushShown := by
  have features := shownAndStack_of_some shown
  have same : f.pushShown.shownAndStack = f.shownAndStack := by
    rw [pushShown_of_some shown, features]
    rfl
  have old := fun m msg hm => h.settled m msg hm List.not_mem_nil
  have rotating := h.rotating
  refine ⟨same ▸ h.levels, ?_, fun m msg hm _ => ?_, fun g' hg' m hm => ?_, same ▸ h.distinct, ?_, ?_, ?_, ?_⟩
  · rw [pushShown_of_some shown]
    intro mode
    have empty : f.stack = [] := by
      by_contra more
      exact level mode ((rotating mode).2 more g shown)
    exact ⟨by simp [empty], fun _ g' never => nomatch never⟩
  · refine settled_of_mark old (r := g.ref) (st := .suspended) (by rw [pushShown_of_some shown]) ?_ ?_ m msg hm
    · rw [pushShown_of_some shown]
      exact fun n hn => ⟨by simp, by simp [hn]⟩
    · rw [pushShown_of_some shown]
      intro n hn
      simp [shown, hn]
  · rw [pushShown_of_some shown]
    exact (markRef_isSome ..).trans (h.stored g' (same ▸ hg') m hm)
  · rw [pushShown_of_some shown]
    exact h.rotation
  · rw [pushShown_of_some shown]
    exact h.posting
  · rw [pushShown_of_some shown]
    exact h.queues
  · rw [pushShown_of_some shown]
    exact markRef_texts h.texts _ _

theorem resume_bandSide {f : FeatureState} {g : Feature} {rest : List Feature} (h : BandSide [] f)
    (idle : f.shown = none) (stack : f.stack = g :: rest) : BandSide [] (f.resume g rest) := by
  have same : (f.resume g rest).shownAndStack = f.shownAndStack := by
    rw [resume_eq, shownAndStack_of_none idle, stack]
    rfl
  have alone := fun m => ref_ne_of_distinct (g := g) (l := rest) (m := m)
    (by simpa [shownAndStack_of_none idle, stack] using h.distinct)
  have old := fun m msg hm => h.settled m msg hm List.not_mem_nil
  have rotating := h.rotating
  refine ⟨same ▸ h.levels, ?_, fun m msg hm _ => ?_, fun g' hg' m hm => ?_, same ▸ h.distinct, ?_, ?_, ?_, ?_⟩
  · rw [resume_eq]
    intro mode
    have one := (rotating mode).1
    rw [stack, List.length_cons] at one
    have empty : rest = [] := List.eq_nil_of_length_eq_zero (by omega)
    exact ⟨by simp [empty], fun more => absurd empty more⟩
  · refine settled_of_mark old (r := g.ref) (st := .shown) (by rw [resume_eq]) ?_ ?_ m msg hm
    · rw [resume_eq]
      exact fun n hn => ⟨by simp [hn], by simpa using alone n hn⟩
    · rw [resume_eq]
      intro n hn
      simp [idle, stack, hn]
  · rw [resume_eq]
    exact (markRef_isSome ..).trans (h.stored g' (same ▸ hg') m hm)
  · rw [resume_eq]
    exact h.rotation
  · rw [resume_eq]
    exact h.posting
  · rw [resume_eq]
    exact h.queues
  · rw [resume_eq]
    exact markRef_texts h.texts _ _

/-! ### A candidate shown (R125, R127) -/

/-- A candidate is one of a level: a WAITING message of it, or the oldest entry of its queue (R125). -/
def Candidate.Of (f : FeatureState) (k : Level) : Candidate → Prop
  | .message m => ∃ msg, f.messages[m] = some msg ∧ msg.state = .waiting
  | .entry e => ∃ rest, f.queues[k] = e :: rest

theorem candidate_of_best {f : FeatureState} {k : Level} {c : Candidate} (h : f.best = some (k, c)) :
    c.Of f k := by
  obtain ⟨l, -, found⟩ := List.exists_of_findSome?_eq_some h
  obtain ⟨d, eligible, same⟩ := Option.map_eq_some_iff.mp found
  obtain ⟨rfl, rfl⟩ := Prod.mk.injEq .. ▸ same
  unfold FeatureState.eligibleAt at eligible
  split at eligible
  · cases eligible
  · unfold FeatureState.firstCandidate at eligible
    split at eligible
    · rename_i m hm
      obtain rfl := Option.some.inj eligible
      have waiting := List.find?_some hm
      unfold waitingAt at waiting
      split at waiting
      · rename_i msg stored
        exact ⟨msg, stored, by simpa using (Bool.and_eq_true_iff.mp waiting).1⟩
      · cases waiting
    · obtain ⟨e, head, rfl⟩ := Option.map_eq_some_iff.mp eligible
      exact ⟨_, List.eq_cons_of_mem_head? head⟩

/-- No feature of a sound band refers to a WAITING message (R122). -/
theorem ref_ne_of_waiting {f : FeatureState} {m : Fin 8} {msg : Message} (h : BandSide [] f)
    (stored : f.messages[m] = some msg) (waiting : msg.state = .waiting) :
    ∀ g ∈ f.shownAndStack, g.ref ≠ .message m := by
  obtain ⟨shown, suspended⟩ := h.settled m msg stored List.not_mem_nil
  intro g hg same
  rcases List.mem_append.mp hg with hg | hg
  · simpa [waiting] using shown.mpr ⟨g, by simpa using hg, same⟩
  · simpa [waiting] using suspended.mpr ⟨g, hg, same⟩

/-- A candidate stays one when the shown feature is suspended. -/
theorem candidate_of_pushShown {f : FeatureState} {g : Feature} {k : Level} {c : Candidate} (h : BandSide [] f)
    (shown : f.shown = some g) (hc : c.Of f k) : c.Of f.pushShown k := by
  cases c with
  | message m =>
    obtain ⟨msg, stored, waiting⟩ := hc
    have other : g.ref ≠ .message m :=
      ref_ne_of_waiting h stored waiting g (by simp [shownAndStack_of_some shown])
    refine ⟨msg, ?_, waiting⟩
    rw [pushShown_of_some shown]
    exact (markRef_messages f g.ref .suspended m).trans ((if_neg other).trans stored)
  | entry e =>
    rw [pushShown_of_some shown]
    exact hc

theorem showCandidate_bandSide {f : FeatureState} {k : Level} {c : Candidate} (h : BandSide [] f)
    (idle : f.shown = none) (hc : c.Of f k) (above : ∀ g ∈ f.stack, k < g.level)
    (rotating : f.mode = .rotating → f.stack ≠ [] → k = 0) : BandSide [] (f.showCandidate k c) := by
  have old := fun m msg hm => h.settled m msg hm List.not_mem_nil
  have features := shownAndStack_of_none idle
  have levels : ∀ g : Feature, g.level = k → (g :: f.stack).Pairwise fun g h => g.level < h.level := fun g hg =>
    List.pairwise_cons.mpr ⟨fun g' hg' => hg ▸ above g' hg', features ▸ h.levels⟩
  cases c with
  | message m =>
    obtain ⟨msg, stored, waiting⟩ := hc
    have free := ref_ne_of_waiting h stored waiting
    rw [features] at free
    have eq : f.showCandidate k (.message m) =
        { f with
          messages := (f.markRef (.message m) .shown).messages
          shown := some { level := k, ref := .message m, dwell := f.dwellOf m } } := by
      rw [FeatureState.showCandidate, markMessage_eq]
      rfl
    rw [eq]
    refine ⟨levels _ rfl, fun mode => ⟨(h.rotating mode).1, fun more g hg => ?_⟩, fun n msg' hn _ => ?_,
      fun g hg n hn => ?_, ?_, h.rotation, h.posting, h.queues, markRef_texts h.texts _ _⟩
    · exact Option.some.inj hg ▸ rotating mode more
    · refine settled_of_mark old (r := .message m) (st := .shown) ?_ (fun n hn => ?_) (fun n hn => ?_) n msg' hn
      · rfl
      · obtain rfl := FeatureRef.message.inj hn
        exact ⟨by simp, by simpa using free⟩
      · have : m ≠ n := fun same => hn (congrArg _ same)
        simp [idle, this]
    · refine (markRef_isSome ..).trans ?_
      rcases List.mem_cons.mp hg with rfl | hg
      · obtain rfl := Option.some.inj hn
        simp [stored]
      · exact h.stored g (features ▸ hg) n hn
    · show ((_ :: f.stack).filterMap Feature.messageOf).Nodup
      rw [List.filterMap_cons_some (show Feature.messageOf _ = some m from rfl), List.nodup_cons]
      refine ⟨fun mem => ?_, features ▸ h.distinct⟩
      obtain ⟨g, hg, same⟩ := List.mem_filterMap.mp mem
      exact free g hg (messageOf_eq_some.mp same)
  | entry e =>
    obtain ⟨rest, queue⟩ := hc
    refine ⟨levels _ rfl, fun mode => ⟨(h.rotating mode).1, fun more g hg => ?_⟩, fun n msg hn _ => ?_,
      fun g hg n hn => ?_, ?_, h.rotation, h.posting, fun l => ?_, h.texts⟩
    · exact Option.some.inj hg ▸ rotating mode more
    · obtain ⟨shown, suspended⟩ := old n msg hn
      refine ⟨shown.trans ?_, suspended⟩
      simp [FeatureState.showCandidate, idle]
    · rcases List.mem_cons.mp hg with rfl | hg
      · cases hn
      · exact h.stored g (features ▸ hg) n hn
    · show ((_ :: f.stack).filterMap Feature.messageOf).Nodup
      rw [List.filterMap_cons_none (show Feature.messageOf _ = none from rfl)]
      exact features ▸ h.distinct
    · show (f.queues.set k f.queues[k].tail)[l].length ≤ 4
      by_cases same : l = k
      · subst same
        simpa using (Nat.sub_le _ 1).trans (h.queues l)
      · have : k.val ≠ l.val := fun e => same (Fin.ext e.symm)
        simpa [Vector.getElem_set_ne _ _ this] using h.queues l

end Sys2Proof.Machine
end

section
/-! Selections, preemptions, endings and feature requests keep the band, the list, the board and the hold counts
sound (R119 to R133). -/

namespace Sys2Proof.Machine

/-! ### The references of a selection (R66, R127, R128) -/

theorem bandRefs_pushShown (f : FeatureState) : bandRefs f.pushShown = bandRefs f := by
  cases shown : f.shown with
  | none => simp only [FeatureState.pushShown, shown]
  | some g =>
    rw [pushShown_of_some shown]
    simp [bandRefs, FeatureState.shownAndStack, shown]

theorem bandRefs_resume {f : FeatureState} {g : Feature} {rest : List Feature} (idle : f.shown = none)
    (stack : f.stack = g :: rest) : bandRefs (f.resume g rest) = bandRefs f := by
  rw [resume_eq]
  simp [bandRefs, FeatureState.shownAndStack, idle, stack]

/-- A queue that changes: what it named before leaves, what it names now comes. -/
theorem queueRefs_set (queues : Vector (List FeatureEntry) 8) (k : Level) (q : List FeatureEntry) :
    ((queues[k].map fun e => (e.slot, e.bib)) ++ queueRefs (queues.set k q).toList).Perm
      ((q.map fun e => (e.slot, e.bib)) ++ queueRefs queues.toList) := by
  rw [Vector.toList_set]
  exact flatMap_set_perm (fun q : List FeatureEntry => q.map fun e => (e.slot, e.bib)) q
    (l := queues.toList) (j := k.val) (by simp)

theorem bandRefs_showCandidate {f : FeatureState} {k : Level} {c : Candidate} (idle : f.shown = none)
    (hc : c.Of f k) : (bandRefs (f.showCandidate k c)).Perm (bandRefs f) := by
  cases c with
  | message m =>
    rw [FeatureState.showCandidate, markMessage_eq]
    refine .of_eq (congrArg (queueRefs f.queues.toList ++ ·) ?_)
    rw [shownAndStack_of_none idle]
    exact List.filterMap_cons_none rfl
  | entry e =>
    obtain ⟨rest, queue⟩ := hc
    have moved := queueRefs_set f.queues k f.queues[k].tail
    rw [queue] at moved
    have queues : (queueRefs f.queues.toList).Perm
        ((e.slot, e.bib) :: queueRefs (f.queues.set k f.queues[k].tail).toList) := by
      rw [queue]
      refine (List.perm_append_left_iff (rest.map fun e => (e.slot, e.bib))).mp (.symm (.trans ?_ moved))
      exact List.perm_middle
    have features : featureRefs (f.showCandidate k (.entry e)).shownAndStack =
        (e.slot, e.bib) :: featureRefs f.shownAndStack := by
      simp [FeatureState.shownAndStack, FeatureState.showCandidate, idle, featureRefs, Feature.refOf]
    rw [bandRefs, bandRefs, features]
    exact List.perm_middle.trans (queues.symm.append_right _)

/-- Of a sound feature controller with nothing shown, what shows a candidate of a level above the stack. -/
theorem showCandidate_keeps {f : FeatureState} {k : Level} {c : Candidate} (h : BandSide [] f)
    (idle : f.shown = none) (hc : c.Of f k) (above : ∀ g ∈ f.stack, k < g.level)
    (rotating : f.mode = .rotating → f.stack ≠ [] → k = 0) :
    BandSide [] (f.showCandidate k c) ∧ (bandRefs (f.showCandidate k c)).Perm (bandRefs f) :=
  ⟨showCandidate_bandSide h idle hc above rotating, bandRefs_showCandidate idle hc⟩

/-- Everything a preemption test finds: no preemptor, or a candidate of a level that preempts the shown feature's. -/
theorem preemptor_cases (f : FeatureState) :
    f.preemptor = none ∨ ∃ g k c, f.shown = some g ∧ f.best = some (k, c) ∧
      preemptsLevel f.mode k g.level = true ∧ f.preemptor = some (k, c) := by
  unfold FeatureState.preemptor
  split
  · exact .inl rfl
  · rename_i g shown
    split
    · rename_i k c best
      split
      · rename_i preempts
        exact .inr ⟨g, k, c, shown, best, preempts, rfl⟩
      · exact .inl rfl
    · exact .inl rfl

theorem preempt_keeps {f : FeatureState} (h : BandSide [] f) :
    BandSide [] f.preempt ∧ (bandRefs f.preempt).Perm (bandRefs f) := by
  unfold FeatureState.preempt
  rcases preemptor_cases f with none | ⟨g, k, c, shown, best, preempts, some⟩
  · rw [none]
    exact ⟨h, .refl _⟩
  · rw [some]
    have levels := h.levels
    rw [shownAndStack_of_some shown, List.pairwise_cons] at levels
    have below : k < g.level ∧ (f.mode = .rotating → k = 0 ∧ g.level ≠ 0) := by
      unfold preemptsLevel at preempts
      split at preempts
      · rename_i mode
        exact ⟨by simpa using preempts, fun rotating => absurd (mode.symm.trans rotating) (by simp)⟩
      · have both : k = 0 ∧ g.level ≠ 0 := by simpa using preempts
        exact ⟨both.1 ▸ Fin.pos_iff_ne_zero.mpr both.2, fun _ => both⟩
    have pushed := pushShown_bandSide h shown fun mode => (below.2 mode).2
    have candidate := candidate_of_pushShown h shown (candidate_of_best best)
    have eq := pushShown_of_some shown
    have stack : f.pushShown.stack = g :: f.stack := by rw [eq]
    have kept := showCandidate_keeps pushed (by rw [eq]) candidate
      (fun g' hg' => by
        rcases List.mem_cons.mp (stack ▸ hg') with rfl | hg'
        · exact below.1
        · exact below.1.trans (levels.1 g' hg'))
      (fun mode _ => (below.2 (by rwa [eq] at mode)).1)
    exact ⟨kept.1, kept.2.trans (.of_eq (bandRefs_pushShown f))⟩

theorem showBest_keeps {f : FeatureState} (h : BandSide [] f) (idle : f.shown = none)
    (above : ∀ k c, f.best = some (k, c) → (∀ g ∈ f.stack, k < g.level) ∧ (f.mode = .rotating → f.stack = [])) :
    BandSide [] f.showBest ∧ (bandRefs f.showBest).Perm (bandRefs f) := by
  unfold FeatureState.showBest
  split
  · rename_i k c best
    obtain ⟨levels, empty⟩ := above k c best
    exact showCandidate_keeps h idle (candidate_of_best best) levels fun mode more => absurd (empty mode) more
  · exact ⟨h, .refl _⟩

theorem select_keeps {f : FeatureState} (h : BandSide [] f) (idle : f.shown = none) :
    BandSide [] f.select ∧ (bandRefs f.select).Perm (bandRefs f) := by
  unfold FeatureState.select
  split
  · rename_i g rest stack
    split
    · obtain ⟨sound, refs⟩ := preempt_keeps (resume_bandSide h idle stack)
      exact ⟨sound, refs.trans (.of_eq (bandRefs_resume idle stack))⟩
    · rename_i stays
      refine showBest_keeps h idle fun k c best => ?_
      unfold FeatureState.resumes at stays
      split at stays
      · exact absurd rfl stays
      · rename_i mode
        have below : k < g.level := by simpa [best] using stays
        have levels := h.levels
        rw [shownAndStack_of_none idle, stack, List.pairwise_cons] at levels
        refine ⟨fun g' hg' => ?_, fun rotating => absurd (mode.symm.trans rotating) (by simp)⟩
        rcases List.mem_cons.mp (stack ▸ hg') with rfl | hg'
        · exact below
        · exact below.trans (levels.1 g' hg')
  · rename_i stack
    exact showBest_keeps h idle fun _ _ _ => by simp [stack]

/-! ### States of a sound core -/

/-- List, band, board and hold counts are sound, with the features `gone` taken off the band whose endings are
still to be finished. Windows, and a band of no lines, are not in it. -/
structure CoreSound (gone : List Feature) (s : State) : Prop where
  list : ListSide (featureRefs gone ++ bandRefs s.fc) s
  band : BandSide gone s.fc

/-- The list's side does not read the feature controller but for its references. -/
theorem ListSide.withFc {b b' : List (Slot × Nat)} {s : State} (h : ListSide b s) (f : FeatureState)
    (refs : b.Perm b') : ListSide b' (s.withFc f) :=
  ⟨h.queue, h.refs.perm (.refl _) refs, h.shape, h.image, h.lines, h.names⟩

/-- Nor does it read the table but for the names and the references. -/
theorem ListSide.withRt {b b' : List (Slot × Nat)} {s : State} (h : ListSide b s) {t : RunnerTable}
    (names : NamesSound t) (refs : RefsSound t (listRefs s.ls) b') : ListSide b' (s.withRt t) :=
  ⟨h.queue, refs, h.shape, h.image, h.lines, names⟩

theorem CoreSound.withFc {gone : List Feature} {s : State} (h : CoreSound gone s) {f : FeatureState}
    (sound : BandSide gone f) (refs : (bandRefs f).Perm (bandRefs s.fc)) : CoreSound gone (s.withFc f) :=
  ⟨h.list.withFc f (refs.symm.append_left _), sound⟩

/-- Lines written within the band (R134, R135). -/
theorem writeBand_coreSound {gone : List Feature} {s : State} {rows : List (List Cell)} (h : CoreSound gone s)
    (fits : rows.length ≤ s.bi.bandHeight) (hrows : ∀ row ∈ rows, RowSound row) :
    CoreSound gone (s.writeLines 0 rows) := by
  have shape := h.list.shape
  exact ⟨⟨h.list.queue, h.list.refs, ⟨shape.lines, shape.height, shape.fits, shape.buffers, shape.top⟩,
    imageSound_band shape h.list.image fits hrows, h.list.lines, h.list.names⟩, h.band⟩

theorem renderBand_coreSound {gone : List Feature} {s : State} (h : CoreSound gone s) :
    CoreSound gone (renderBand s) :=
  writeBand_coreSound h (bandRows_length s).le (rowSound_bandRows h.list.names h.band.texts)

theorem renderIdleClock_coreSound {gone : List Feature} {s : State} (h : CoreSound gone s) :
    CoreSound gone (renderIdleClock s) := by
  rcases renderIdleClock_cases s with same | ⟨-, open_, eq⟩
  · rwa [same]
  · rw [eq]
    exact writeBand_coreSound h open_ fun row mem => List.mem_singleton.mp mem ▸ rowSound_idleLine0 s

theorem rerenderBand_coreSound {gone : List Feature} (i : Slot) {s : State} (h : CoreSound gone s) :
    CoreSound gone (rerenderBand i s) := by
  unfold rerenderBand
  split
  · split
    · exact renderBand_coreSound h
    · exact h
  · exact h

/-- An operation of the list that keeps the list's side keeps the whole. -/
theorem CoreSound.of_list {gone : List Feature} {s t : State} (h : CoreSound gone s) (only : OnlyList s t)
    (list : ∀ b, ListSide b s → ListSide b t) : CoreSound gone t := by
  obtain ⟨_, _, _, _, _, _, rfl⟩ := onlyList_iff.mp only
  exact ⟨list _ h.list, h.band⟩

theorem headTest_coreSound {gone : List Feature} {s : State} (h : CoreSound gone s) : CoreSound gone (headTest s) :=
  h.of_list (headTest_onlyList s) fun _ => headTest_listSide

theorem rerender_coreSound {gone : List Feature} (i : Slot) {s : State} (h : CoreSound gone s) :
    CoreSound gone (rerender i s) :=
  rerenderBand_coreSound i (h.of_list (rerenderLine_onlyCells i s).onlyList fun _ => rerenderLine_listSide i)

/-! ### Selections (R127, R128) -/

theorem selectFeature_coreSound {s : State} (h : CoreSound [] s) : CoreSound [] (selectFeature s) := by
  unfold selectFeature
  split
  · rename_i idle
    obtain ⟨sound, refs⟩ := select_keeps h.band (Option.isNone_iff_eq_none.mp idle.2)
    exact renderBand_coreSound (h.withFc sound refs)
  · exact h

theorem testPreemption_coreSound {s : State} (h : CoreSound [] s) : CoreSound [] (testPreemption s) := by
  unfold testPreemption
  split
  · obtain ⟨sound, refs⟩ := preempt_keeps h.band
    exact renderBand_coreSound (h.withFc sound refs)
  · exact h

theorem selectOrTest_coreSound {s : State} (h : CoreSound [] s) : CoreSound [] (selectOrTest s) := by
  unfold selectOrTest
  split
  · exact selectFeature_coreSound h
  · exact testPreemption_coreSound h

/-! ### Endings (R130) -/

theorem rotate_eq (f : FeatureState) (k : Level) : f.rotate k = { f with rotation := (f.rotate k).rotation } := by
  unfold FeatureState.rotate
  split
  · rfl
  · split <;> rfl

theorem rotate_rotation {f : FeatureState} (k : Level) (h : f.rotation.Perm [1, 2, 3, 4, 5, 6, 7]) :
    (f.rotate k).rotation.Perm [1, 2, 3, 4, 5, 6, 7] := by
  unfold FeatureState.rotate
  split
  · exact h
  · split
    · exact h
    · rename_i positive
      have listed : k ∈ f.rotation := h.mem_iff.mpr (by revert positive; revert k; decide)
      exact ((List.perm_append_singleton k _).trans (List.perm_cons_erase listed).symm).trans h

theorem rotate_bandSide {gone : List Feature} {f : FeatureState} (k : Level) (h : BandSide gone f) :
    BandSide gone (f.rotate k) := by
  have rotation := rotate_rotation k h.rotation
  rw [rotate_eq]
  exact ⟨h.levels, h.rotating, h.settled, h.stored, h.distinct, rotation, h.posting, h.queues, h.texts⟩

theorem bandRefs_rotate (f : FeatureState) (k : Level) : bandRefs (f.rotate k) = bandRefs f := by
  rw [rotate_eq]
  rfl

/-- The message of a feature that ends is EMPTY or WAITING again, and no feature refers to it (R130). -/
theorem settle_bandSide {gone : List Feature} {f : FeatureState} {g : Feature} {m : Fin 8} {x : Option Message}
    (h : BandSide (g :: gone) f) (ref : g.ref = .message m) (waiting : ∀ msg ∈ x, msg.state = .waiting)
    (text : ∀ msg ∈ x, ∀ line ∈ msg.lines, TextLineSound line) :
    BandSide gone { f with messages := f.messages.set m x } := by
  have free := ref_ne_of_distinct (g := g) (l := gone ++ f.shownAndStack) h.distinct ref
  have distinct := h.distinct
  rw [List.cons_append, List.filterMap_cons_some (messageOf_eq_some.mpr ref), List.nodup_cons] at distinct
  have messages (n : Fin 8) : (f.messages.set m x)[n] = if n = m then x else f.messages[n] := by
    by_cases same : n = m
    · subst same
      simp
    · have : m.val ≠ n.val := fun e => same (Fin.ext e.symm)
      simp [Vector.getElem_set_ne _ _ this, same]
  refine ⟨h.levels, h.rotating, fun n msg hn unsettled => ?_, fun g' hg' n hn => ?_, distinct.2, h.rotation,
    h.posting, h.queues, fun n msg hn => ?_⟩
  · rw [messages] at hn
    split at hn
    · rename_i same
      subst same
      have state := waiting msg hn
      refine ⟨?_, ?_⟩ <;> simp only [state, reduceCtorEq, false_iff, not_exists, not_and]
      · exact fun g' hg' => free g' (by simp [FeatureState.shownAndStack, Option.mem_def.mp hg'])
      · exact fun g' hg' => free g' (by simp [FeatureState.shownAndStack, hg'])
    · rename_i other
      refine h.settled n msg hn ?_
      rw [List.filterMap_cons_some (messageOf_eq_some.mpr ref), List.mem_cons]
      exact not_or.mpr ⟨other, unsettled⟩
  · show (f.messages.set m x)[n].isSome
    rw [messages, if_neg]
    · exact h.stored g' hg' n hn
    · rintro rfl
      exact free g' (List.mem_append_right _ hg') (messageOf_eq_some.mp hn)
  · rw [messages] at hn
    split at hn
    · exact text msg hn
    · exact h.texts n msg hn

/-- A feature without a message of its own settles nothing. -/
theorem finished_bandSide {gone : List Feature} {f : FeatureState} {g : Feature} (h : BandSide (g :: gone) f)
    (none : ∀ m, g.messageOf = some m → f.messages[m] = none) : BandSide gone f := by
  refine ⟨h.levels, h.rotating, fun n msg hn unsettled => h.settled n msg hn fun mem => ?_, h.stored, ?_,
    h.rotation, h.posting, h.queues, h.texts⟩
  · obtain ⟨g', hg', same⟩ := List.mem_filterMap.mp mem
    rcases List.mem_cons.mp hg' with rfl | hg'
    · rw [none n same] at hn
      cases hn
    · exact unsettled (List.mem_filterMap.mpr ⟨g', hg', same⟩)
  · exact h.distinct.sublist ((List.sublist_cons_self g _).filterMap _)

theorem endedMessage_state {deleted : Bool} {msg msg' : Message} (h : endedMessage deleted msg = some msg') :
    msg' = { msg with state := .waiting } := by
  unfold endedMessage at h
  split at h
  · cases h
  · exact (Option.some.inj h).symm

theorem finishFeature_coreSound {gone : List Feature} {deleted : Bool} {g : Feature} {s : State}
    (h : CoreSound (g :: gone) s) : CoreSound gone (finishFeature deleted g s) := by
  have noRef {m : Fin 8} (ref : g.ref = .message m) : featureRefs (g :: gone) = featureRefs gone := by
    rw [featureRefs, List.filterMap_cons_none (by simp [Feature.refOf, ref])]
    rfl
  unfold finishFeature
  split
  · rename_i e ref
    have settled := finished_bandSide h.band fun m hm => absurd (messageOf_eq_some.mp hm) (by simp [ref])
    refine ⟨?_, rotate_bandSide _ settled⟩
    have refs := h.list.refs
    rw [featureRefs, List.filterMap_cons_some (show g.refOf = some (e.slot, e.bib) by simp [Feature.refOf, ref])]
      at refs
    have released : ListSide (featureRefs gone ++ bandRefs s.fc) (s.withRt (s.rt.release e.slot)) :=
      h.list.withRt h.list.names refs.swap.release.swap
    refine released.withFc _ (.of_eq ?_)
    exact congrArg _ (bandRefs_rotate s.fc g.level).symm
  · rename_i m ref
    split
    · rename_i msg stored
      have text := h.band.texts m msg stored
      have settled := settle_bandSide (x := endedMessage deleted msg) h.band ref
        (fun msg' hm => endedMessage_state hm ▸ rfl) fun msg' hm => endedMessage_state hm ▸ text
      exact ⟨h.list.withFc _ (.of_eq (congrArg₂ (· ++ ·) (noRef ref) (bandRefs_rotate { s.fc with
        messages := s.fc.messages.set m (endedMessage deleted msg) } g.level).symm)), rotate_bandSide _ settled⟩
    · rename_i empty
      have settled := finished_bandSide h.band fun n hn => by
        rw [show n = m from FeatureRef.message.inj ((messageOf_eq_some.mp hn).symm.trans ref)]
        exact empty
      exact ⟨h.list.withFc _ (.of_eq (congrArg₂ (· ++ ·) (noRef ref) (bandRefs_rotate _ g.level).symm)),
        rotate_bandSide _ settled⟩

/-- Features taken off the band: their messages are still to be settled, the others' places are as they were. -/
theorem taken_bandSide {gone stack : List Feature} {shown : Option Feature} {f : FeatureState} (h : BandSide [] f)
    (parts : (gone ++ (shown.toList ++ stack)).Perm f.shownAndStack)
    (sub : (shown.toList ++ stack).Sublist f.shownAndStack)
    (shownKept : ∀ g ∈ shown, f.shown = some g) (stackSub : stack.Sublist f.stack)
    (places : ∀ g ∈ f.shownAndStack, g ∉ gone → (g ∈ f.shown → g ∈ shown) ∧ (g ∈ f.stack → g ∈ stack)) :
    BandSide gone { f with shown, stack } := by
  have messages : ((gone ++ (shown.toList ++ stack)).filterMap Feature.messageOf).Perm
      (f.shownAndStack.filterMap Feature.messageOf) := parts.filterMap _
  refine ⟨h.levels.sublist sub, fun mode => ?_, fun m msg hm unsettled => ?_, fun g hg => h.stored g (sub.subset hg),
    messages.nodup_iff.mpr h.distinct, h.rotation, h.posting, h.queues, h.texts⟩
  · obtain ⟨one, zero⟩ := h.rotating mode
    refine ⟨stackSub.length_le.trans one, fun more g hg => zero ?_ g (shownKept g hg)⟩
    exact fun empty => more (List.sublist_nil.mp (empty ▸ stackSub))
  · obtain ⟨wasShown, wasSuspended⟩ := h.settled m msg hm List.not_mem_nil
    have stays {g : Feature} (ref : g.ref = .message m) : g ∉ gone := fun hg =>
      unsettled (List.mem_filterMap.mpr ⟨g, hg, messageOf_eq_some.mpr ref⟩)
    refine ⟨wasShown.trans ⟨?_, ?_⟩, wasSuspended.trans ⟨?_, ?_⟩⟩
    · rintro ⟨g, hg, ref⟩
      exact ⟨g, (places g (by simp [FeatureState.shownAndStack, Option.mem_def.mp hg]) (stays ref)).1 hg, ref⟩
    · rintro ⟨g, hg, ref⟩
      exact ⟨g, shownKept g hg, ref⟩
    · rintro ⟨g, hg, ref⟩
      exact ⟨g, (places g (by simp [FeatureState.shownAndStack, hg]) (stays ref)).2 hg, ref⟩
    · rintro ⟨g, hg, ref⟩
      exact ⟨g, stackSub.subset hg, ref⟩

end Sys2Proof.Machine
end

section
/-! Everything the references rest on is sound at every step (R66): each operation of the five blocks keeps it. -/

namespace Sys2Proof.Machine

/-! ### Features taken off the band and finished (R130) -/

theorem bandRefs_taken {gone stack : List Feature} {shown : Option Feature} {f : FeatureState}
    (parts : (gone ++ (shown.toList ++ stack)).Perm f.shownAndStack) :
    (bandRefs f).Perm (featureRefs gone ++ bandRefs { f with shown, stack }) := by
  have features : (featureRefs gone ++ featureRefs (shown.toList ++ stack)).Perm
      (featureRefs f.shownAndStack) := by
    rw [featureRefs, featureRefs, ← List.filterMap_append]
    exact parts.filterMap _
  exact (features.symm.append_left _).trans (List.perm_append_comm_assoc _ _ _)

theorem taken_coreSound {gone stack : List Feature} {shown : Option Feature} {s : State} (h : CoreSound [] s)
    (parts : (gone ++ (shown.toList ++ stack)).Perm s.fc.shownAndStack)
    (band : BandSide gone { s.fc with shown, stack }) :
    CoreSound gone (s.withFc { s.fc with shown, stack }) :=
  ⟨h.list.withFc _ (bandRefs_taken parts), band⟩

theorem foldl_finishFeature_coreSound {gone : List Feature} {deleted : Bool} {s : State} (h : CoreSound gone s) :
    CoreSound [] (gone.foldl (fun t g => finishFeature deleted g t) s) := by
  induction gone generalizing s with
  | nil => exact h
  | cons g gone ih => exact ih (finishFeature_coreSound h)

theorem endShown_coreSound {deleted : Bool} {s : State} (h : CoreSound [] s) : CoreSound [] (endShown deleted s) := by
  unfold endShown
  split
  · rename_i g shown
    have parts : ([g] ++ ((none : Option Feature).toList ++ s.fc.stack)).Perm s.fc.shownAndStack :=
      .of_eq (shownAndStack_of_some shown).symm
    refine finishFeature_coreSound (taken_coreSound h parts ?_)
    refine taken_bandSide h.band parts (List.sublist_append_right _ _) (fun _ never => nomatch never) (.refl _)
      fun g' _ other => ⟨fun here => ?_, id⟩
    rw [Option.mem_def, shown, Option.some.injEq] at here
    exact absurd (List.mem_singleton.mpr here.symm) other
  · exact h

theorem removeSuspended_coreSound {deleted : Bool} {gone : Feature → Bool} {s : State} (h : CoreSound [] s) :
    CoreSound [] (removeSuspended deleted gone s) := by
  have parts : (s.fc.stack.filter gone ++ (s.fc.shown.toList ++ s.fc.stack.filter fun g => !gone g)).Perm
      s.fc.shownAndStack :=
    (List.perm_append_comm_assoc _ _ _).trans ((List.filter_append_perm gone s.fc.stack).append_left _)
  refine foldl_finishFeature_coreSound (taken_coreSound h parts (taken_bandSide h.band parts
    (List.filter_sublist.append_left _) (fun _ => id) List.filter_sublist fun g _ other => ⟨id, fun here => ?_⟩))
  refine List.mem_filter.mpr ⟨here, ?_⟩
  by_contra goes
  exact other (List.mem_filter.mpr ⟨here, by simpa using goes⟩)

/-! ### A band of no lines (R119) -/

theorem idleSound_of_onlyBand {s t : State} (only : OnlyBand s t) (h : IdleSound s)
    (shown : s.bi.bandHeight = 0 → t.fc.shown = s.fc.shown ∨ t.fc.shown = none) : IdleSound t := by
  obtain ⟨_, _, _, rfl⟩ := onlyBand_iff.mp only
  exact fun none => (shown none).elim (fun same => same.trans (h none)) id

theorem rotate_shown (f : FeatureState) (k : Level) : (f.rotate k).shown = f.shown := by
  rw [rotate_eq]

theorem finishFeature_shown (deleted : Bool) (g : Feature) (s : State) :
    (finishFeature deleted g s).fc.shown = s.fc.shown := by
  unfold finishFeature
  split
  · exact rotate_shown s.fc g.level
  · split
    · exact rotate_shown _ g.level
    · exact rotate_shown s.fc g.level

theorem foldl_finishFeature_shown (deleted : Bool) (l : List Feature) (s : State) :
    (l.foldl (fun t g => finishFeature deleted g t) s).fc.shown = s.fc.shown := by
  induction l generalizing s with
  | nil => rfl
  | cons g l ih => exact (ih _).trans (finishFeature_shown deleted g s)

theorem removeSuspended_shown (deleted : Bool) (gone : Feature → Bool) (s : State) :
    (removeSuspended deleted gone s).fc.shown = s.fc.shown := foldl_finishFeature_shown deleted _ _

theorem endShown_shown (deleted : Bool) (s : State) : (endShown deleted s).fc.shown = none := by
  unfold endShown
  split
  · exact finishFeature_shown deleted _ _
  · assumption

theorem selectFeature_idleSound {s : State} (h : IdleSound s) : IdleSound (selectFeature s) :=
  idleSound_of_onlyBand (selectFeature_onlyBand s) h fun none => .inl (by simp [selectFeature, none])

theorem selectOrTest_idleSound {s : State} (h : IdleSound s) : IdleSound (selectOrTest s) :=
  idleSound_of_onlyBand (selectOrTest_onlyBand s) h fun none => .inl (by
    simp [selectOrTest, selectFeature, testPreemption, none])

theorem endShown_idleSound (deleted : Bool) (s : State) : IdleSound (endShown deleted s) :=
  fun _ => endShown_shown deleted s

/-! ### A sound state -/

/-- Every defined window lies on the board (R161). -/
def WindowsSound (b : BoardState) : Prop :=
  ∀ (i : Fin 6) (w : Window), b.windows[i] = some w → WindowSound b.lineCount w

/-- A state with a sound core whose band, when it has no lines, shows nothing. -/
structure Sound (s : State) : Prop where
  core : CoreSound [] s
  idle : IdleSound s

theorem referencesSound_iff (s : State) : ReferencesSound s ↔ Sound s ∧ WindowsSound s.bi := by
  constructor
  · rintro ⟨⟨queue, listed⟩, ⟨queues, banded⟩, band,
      ⟨lines, height, fits, buffers, top, length, rows, windows, list, cells, names, texts⟩,
      ⟨counted, lineNamed, queueNamed, bandNamed, featureNamed⟩⟩
    obtain ⟨bandSide, idle⟩ := (bandSound_iff s).mp ⟨band, queues, texts⟩
    refine ⟨⟨⟨⟨queue, ⟨?_, ?_, fun i => ?_, fun p hp => ?_⟩, ⟨lines, height, fits, buffers, top⟩,
      ⟨length, rows, list⟩, cells, names⟩, bandSide⟩, idle⟩, windows⟩
    · rwa [map_fst_listRefs]
    · show ((bandRefs s.fc).map Prod.fst).Nodup
      rwa [map_fst_bandRefs]
    · show _ = _ + ((bandRefs s.fc).map Prod.fst).count i
      rw [map_fst_listRefs, map_fst_bandRefs]
      exact counted i
    · rcases hp with hp | hp
      · rcases mem_listRefs.mp hp with ⟨line, hl, rfl⟩ | ⟨e, he, rfl⟩
        · exact lineNamed line hl
        · exact queueNamed e he
      · rcases mem_bandRefs.mp hp with ⟨k, e, he, rfl⟩ | ⟨g, hg, e, ref, rfl⟩
        · exact bandNamed k e he
        · exact featureNamed g hg e ref
  · rintro ⟨⟨⟨⟨queue, ⟨listed, banded, counted, named⟩, ⟨lines, height, fits, buffers, top⟩,
      ⟨length, rows, list⟩, cells, names⟩, bandSide⟩, idle⟩, windows⟩
    obtain ⟨band, queues, texts⟩ := (bandSound_iff s).mpr ⟨bandSide, idle⟩
    rw [map_fst_listRefs] at listed
    rw [show (featureRefs [] ++ bandRefs s.fc).map Prod.fst = featureSlots s.fc from map_fst_bandRefs s.fc] at banded
    refine ⟨⟨queue, listed⟩, ⟨queues, banded⟩, band,
      ⟨lines, height, fits, buffers, top, length, rows, windows, list, cells, names, texts⟩,
      fun i => ?_, fun line hl => ?_, fun e he => ?_, fun k e he => ?_, fun g hg e ref => ?_⟩
    · rw [counted, map_fst_listRefs,
        show (featureRefs [] ++ bandRefs s.fc).map Prod.fst = featureSlots s.fc from map_fst_bandRefs s.fc]
    · exact named (line.slot, line.bib) (.inl (mem_listRefs.mpr (.inl ⟨line, hl, rfl⟩)))
    · exact named (e.slot, e.bib) (.inl (mem_listRefs.mpr (.inr ⟨e, he, rfl⟩)))
    · exact named (e.slot, e.bib) (.inr (mem_bandRefs.mpr (.inl ⟨k, e, he, rfl⟩)))
    · exact named (e.slot, e.bib) (.inr (mem_bandRefs.mpr (.inr ⟨g, hg, e, ref, rfl⟩)))

/-- An operation of the list that keeps the list's side keeps a sound state. -/
theorem Sound.of_list {s t : State} (h : Sound s) (only : OnlyList s t) (list : ∀ b, ListSide b s → ListSide b t) :
    Sound t := by
  refine ⟨h.core.of_list only list, ?_⟩
  obtain ⟨_, _, _, _, _, _, rfl⟩ := onlyList_iff.mp only
  exact h.idle

theorem headTest_sound {s : State} (h : Sound s) : Sound (headTest s) :=
  h.of_list (headTest_onlyList s) fun _ => headTest_listSide

theorem renderBand_sound {s : State} (h : Sound s) : Sound (renderBand s) :=
  ⟨renderBand_coreSound h.core, h.idle⟩

theorem renderIdleClock_sound {s : State} (h : Sound s) : Sound (renderIdleClock s) := by
  refine ⟨renderIdleClock_coreSound h.core, ?_⟩
  obtain ⟨_, eq⟩ := onlyImage_iff.mp (renderIdleClock_onlyImage s)
  rw [eq]
  exact h.idle

theorem rerender_sound (i : Slot) {s : State} (h : Sound s) : Sound (rerender i s) := by
  refine ⟨rerender_coreSound i h.core, ?_⟩
  obtain ⟨_, _, eq, -⟩ := onlyCells_iff.mp (rerender_onlyCells i s)
  rw [eq]
  exact h.idle

theorem selectOrTest_sound {s : State} (h : Sound s) : Sound (selectOrTest s) :=
  ⟨selectOrTest_coreSound h.core, selectOrTest_idleSound h.idle⟩

theorem selectFeature_sound {s : State} (h : Sound s) : Sound (selectFeature s) :=
  ⟨selectFeature_coreSound h.core, selectFeature_idleSound h.idle⟩

theorem testPreemption_sound {s : State} (h : Sound s) : Sound (testPreemption s) :=
  ⟨testPreemption_coreSound h.core, idleSound_of_onlyBand (testPreemption_onlyBand s) h.idle fun none =>
    .inl (by simp [testPreemption, none])⟩

theorem endShown_sound {deleted : Bool} {s : State} (h : CoreSound [] s) : Sound (endShown deleted s) :=
  ⟨endShown_coreSound h, endShown_idleSound deleted s⟩

theorem endAndSelect_sound {deleted : Bool} {s : State} (h : Sound s) : Sound (endAndSelect deleted s) :=
  selectFeature_sound (endShown_sound h.core)

theorem removeSuspended_sound {deleted : Bool} {gone : Feature → Bool} {s : State} (h : Sound s) :
    Sound (removeSuspended deleted gone s) :=
  ⟨removeSuspended_coreSound h.core, idleSound_of_onlyBand (removeSuspended_onlyBand deleted gone s) h.idle
    fun _ => .inl (removeSuspended_shown deleted gone s)⟩

/-- The feature controller replaced by a sound one with the same references, that shows what was shown. -/
theorem Sound.withFc {s : State} (h : Sound s) {f : FeatureState} (sound : BandSide [] f)
    (refs : (bandRefs f).Perm (bandRefs s.fc)) (shown : f.shown = s.fc.shown) : Sound (s.withFc f) :=
  ⟨h.core.withFc sound refs, fun none => shown.trans (h.idle none)⟩

/-! ### Feature requests (R120) -/

theorem dropOldest_sound (k : Level) {s : State} (h : Sound s) :
    Sound (dropOldest k s) ∧ (dropOldest k s).fc.queues[k].length < 4 := by
  rcases dropOldest_cases k s with ⟨room, same⟩ | ⟨e, rest, queue, -, eq⟩
  · rw [same]
    exact ⟨h, room⟩
  · have moved := queueRefs_set s.fc.queues k rest
    rw [queue] at moved
    have refs : (bandRefs s.fc).Perm
        ((e.slot, e.bib) :: bandRefs { s.fc with queues := s.fc.queues.set k rest }) := by
      refine (List.Perm.append_right _ ?_ : (_ ++ featureRefs s.fc.shownAndStack).Perm (_ :: _ ++ _))
      refine (List.perm_append_left_iff (rest.map fun e => (e.slot, e.bib))).mp (.symm (.trans ?_ moved))
      exact List.perm_middle
    have short := h.core.band.queues k
    rw [queue, List.length_cons] at short
    have queues (l : Level) : (s.fc.queues.set k rest)[l].length ≤ 4 := by
      by_cases same : l = k
      · subst same
        simpa using (Nat.le_succ _).trans short
      · have : k.val ≠ l.val := fun e => same (Fin.ext e.symm)
        simpa [Vector.getElem_set_ne _ _ this] using h.core.band.queues l
    rw [eq]
    have b := h.core.band
    refine ⟨⟨⟨?_, ⟨b.levels, b.rotating, b.settled, b.stored, b.distinct, b.rotation, b.posting, queues, b.texts⟩⟩,
      h.idle⟩, ?_⟩
    · have dropped := (h.core.list.refs.perm (.refl _) refs).swap.release.swap
      exact (h.core.list.withRt (t := s.rt.release e.slot) h.core.list.names dropped).withFc _ (.refl _)
    · show (s.fc.queues.set k rest)[k].length < 4
      simpa using short

theorem queueEntry_sound {k : Level} {e : FeatureEntry} {s : State} (h : Sound s)
    (room : s.fc.queues[k].length < 4) (fresh : e.slot ∉ (bandRefs s.fc).map Prod.fst)
    (bib : HoldsBib s.rt e.slot e.bib) : Sound (queueEntry k e s) := by
  have b := h.core.band
  have refs : ((e.slot, e.bib) :: bandRefs s.fc).Perm
      (bandRefs { s.fc with queues := s.fc.queues.set k (s.fc.queues[k] ++ [e]) }) := by
    have moved := queueRefs_set s.fc.queues k (s.fc.queues[k] ++ [e])
    rw [List.map_append, List.append_assoc, List.perm_append_left_iff] at moved
    exact (moved.append_right (featureRefs s.fc.shownAndStack)).symm
  have queues (l : Level) : (s.fc.queues.set k (s.fc.queues[k] ++ [e]))[l].length ≤ 4 := by
    by_cases same : l = k
    · subst same
      simpa using room
    · have : k.val ≠ l.val := fun e => same (Fin.ext e.symm)
      simpa [Vector.getElem_set_ne _ _ this] using b.queues l
  refine ⟨⟨?_, ⟨b.levels, b.rotating, b.settled, b.stored, b.distinct, b.rotation, b.posting, queues, b.texts⟩⟩,
    h.idle⟩
  have held := (h.core.list.refs.swap.hold (p := (e.slot, e.bib)) fresh bib).swap
  exact (h.core.list.withRt (t := s.rt.hold e.slot) h.core.list.names held).withFc _ refs

/-- A slot that is neither shown nor queued nor suspended is in no reference of the band (R120). -/
theorem not_mem_bandRefs {f : FeatureState} {i : Slot} (shown : f.shows i = false) (queued : f.holdsSlot i = false) :
    i ∉ (bandRefs f).map Prod.fst := by
  obtain ⟨queues, stack⟩ := Bool.or_eq_false_iff.mp queued
  have notFor {g : Feature} {e : FeatureEntry} (ref : g.ref = .runner e) (h : g.isFor i = false) : e.slot ≠ i := by
    simpa [Feature.isFor, ref] using h
  intro mem
  obtain ⟨p, hp, rfl⟩ := List.mem_map.mp mem
  rcases mem_bandRefs.mp hp with ⟨k, e, he, rfl⟩ | ⟨g, hg, e, ref, rfl⟩
  · have := List.any_eq_false.mp queues k (List.mem_finRange k)
    exact this (List.any_eq_true.mpr ⟨e, he, by simp⟩)
  · refine notFor ref ?_ rfl
    rcases List.mem_append.mp hg with hg | hg
    · have shown' : f.shown = some g := by simpa using hg
      simpa [FeatureState.shows, shown'] using shown
    · simpa using List.any_eq_false.mp stack g hg

theorem dropOldest_refs_subset (k : Level) (s : State) : bandRefs (dropOldest k s).fc ⊆ bandRefs s.fc := by
  intro p hp
  rcases dropOldest_cases k s with ⟨-, same⟩ | ⟨e, rest, queue, -, eq⟩
  · rwa [same] at hp
  · rw [eq] at hp
    rw [mem_bandRefs] at hp ⊢
    refine hp.imp_left ?_
    rintro ⟨l, e', he', rfl⟩
    refine ⟨l, e', ?_, rfl⟩
    replace he' : e' ∈ (s.fc.queues.set k rest)[l] := he'
    by_cases same : l = k
    · subst same
      rw [queue]
      exact List.mem_cons_of_mem e (by simpa using he')
    · have : k.val ≠ l.val := fun e => same (Fin.ext e.symm)
      simpa [Vector.getElem_set_ne _ _ this] using he'

theorem requestFeature_sound {k : Level} {e : FeatureEntry} {s : State} (h : Sound s)
    (bib : HoldsBib s.rt e.slot e.bib) : Sound (requestFeature k e s) := by
  unfold requestFeature
  split
  · exact renderBand_sound h
  · rename_i shown
    split
    · exact h
    · rename_i queued
      obtain ⟨dropped, room⟩ := dropOldest_sound k h
      refine selectOrTest_sound (queueEntry_sound dropped room (fun mem => ?_) ?_)
      · exact not_mem_bandRefs (by simpa using shown) (by simpa using queued)
          (List.map_subset _ (dropOldest_refs_subset k s) mem)
      · obtain ⟨_, _, _, eq⟩ := onlyBand_iff.mp (dropOldest_onlyBand k s)
        rw [eq]
        exact bib

end Sys2Proof.Machine
end

section
/-! Operations of the runner table, crossings and messages keep a sound state sound (R45, R66, R122 to R133). -/

namespace Sys2Proof.Machine

/-! ### Table and references (R66) -/

/-- The table `u` keeps what the references of `t` rest on: the hold counts, the bib of every held slot, and names
a cell may hold. -/
structure KeepsRefs (t u : RunnerTable) : Prop where
  holds : u.holds = t.holds
  bibs : ∀ (i : Slot) (bib : Nat), 0 < t.holds[i] → HoldsBib t i bib → HoldsBib u i bib
  names : NamesSound t → NamesSound u

theorem keepsRefs_refl (t : RunnerTable) : KeepsRefs t t := ⟨rfl, fun _ _ _ h => h, id⟩

theorem KeepsRefs.trans {t u v : RunnerTable} (h : KeepsRefs t u) (h' : KeepsRefs u v) : KeepsRefs t v :=
  ⟨h'.holds.trans h.holds, fun i bib held named => h'.bibs i bib (by rwa [h.holds]) (h.bibs i bib held named),
    fun names => h'.names (h.names names)⟩

/-- The table of another with the records and holds of the first. -/
theorem keepsRefs_of_slots {t u : RunnerTable} (holds : u.holds = t.holds) (slots : u.slots = t.slots) :
    KeepsRefs t u := by
  refine ⟨holds, fun i bib _ h => ?_, fun names i r hr => names i r (slots ▸ hr)⟩
  rwa [HoldsBib, slots]

theorem holdsBib_put {t : RunnerTable} {i j : Slot} {r q : Record} {bib : Nat} (occupied : t.slots[i] = some r)
    (same : q.bib = r.bib) (h : HoldsBib t j bib) : HoldsBib (t.put i q) j bib := by
  obtain ⟨r', hr', rfl⟩ := h
  by_cases here : j = i
  · subst here
    obtain rfl := Option.some.inj (occupied.symm.trans hr')
    exact ⟨q, RunnerTable.put_slots_self .., same⟩
  · exact ⟨r', (RunnerTable.put_slots_ne t q here).trans hr', rfl⟩

theorem keepsRefs_put {t : RunnerTable} {i : Slot} {r q : Record} (occupied : t.slots[i] = some r)
    (bib : q.bib = r.bib) (name : NameSound r → NameSound q) : KeepsRefs t (t.put i q) := by
  refine ⟨rfl, fun j b _ => holdsBib_put occupied bib, fun names j q' hq' => ?_⟩
  rcases put_slots_cases hq' with ⟨rfl, rfl⟩ | ⟨-, hq'⟩
  · exact name (names _ r occupied)
  · exact names j q' hq'

/-- An allocation takes a slot that no reference names. -/
theorem keepsRefs_allocate {t u : RunnerTable} {i : Slot} {r : Record} (slot : t.allocate r = some (i, u))
    (name : NameSound r) : KeepsRefs t u := by
  refine ⟨allocate_holds slot, fun j bib held => ?_, fun names j q hq => ?_⟩
  · have other : j ≠ i := fun same => held.ne' (same ▸ (allocate_victim slot).2.2)
    rintro ⟨q, hq, rfl⟩
    exact ⟨q, (allocate_slots_ne slot other).trans hq, rfl⟩
  · rcases allocate_slots_cases slot hq with ⟨-, rfl⟩ | ⟨-, hq⟩
    · exact name
    · exact names j q hq

theorem keepsRefs_timeOutFills (now : Nat) (t : RunnerTable) : KeepsRefs t (timeOutFills now t) := by
  refine ⟨by rw [timeOutFills_eq], fun i bib _ => ?_, fun names i q hq => ?_⟩
  · rintro ⟨r, hr, rfl⟩
    rw [HoldsBib, timeOutFills_slots, hr]
    split
    · exact ⟨_, rfl, rfl⟩
    · exact ⟨r, rfl, rfl⟩
  · obtain ⟨r, hr, rfl | rfl⟩ := timeOutFills_record hq
    · exact names i q hr
    · exact names i r hr

theorem flush_holds (t : RunnerTable) : t.flush.holds = t.holds := by
  rw [RunnerTable.flush]

/-- A flush keeps every held slot (R85). -/
theorem keepsRefs_flush (t : RunnerTable) : KeepsRefs t t.flush := by
  refine ⟨flush_holds t, fun i bib held => ?_, fun names i r hr => names i r (flush_record hr).2⟩
  rintro ⟨r, hr, rfl⟩
  have kept : t.kept i = true := by
    rw [kept_eq, decide_eq_true held, Bool.or_true]
  exact ⟨r, by rw [flush_slots, if_pos kept, hr], rfl⟩

theorem keepsRefs_markStale (named : Record → Bool) (t : RunnerTable) : KeepsRefs t (markStale named t) := by
  refine ⟨rfl, fun i bib _ => ?_, fun names i q hq => ?_⟩
  · rintro ⟨r, hr, rfl⟩
    rw [HoldsBib, markStale_slots, hr]
    refine ⟨_, rfl, ?_⟩
    dsimp only
    split <;> rfl
  · obtain ⟨r, hr, rfl | rfl⟩ := markStale_record hq
    · exact names i q hr
    · exact names i r hr

theorem tableStep_keepsRefs {p q : RunnerTable × PassState} (step : TableStep p q) : KeepsRefs p.1 q.1 := by
  cases step with
  | recorded occupied bib pin fill name =>
    exact keepsRefs_put occupied bib fun sound l hl => sound l (name ▸ hl)
  | @filled t x i r q occupied bib pin fill name =>
    exact KeepsRefs.trans (u := t.withdraw r.bib) (keepsRefs_of_slots rfl rfl) (keepsRefs_put occupied bib name)
  | pinned occupied pin => exact keepsRefs_put occupied rfl id
  | allocated enters slot => exact keepsRefs_allocate slot enters.name
  | @requested t u _ _ _ enters slot =>
    exact (keepsRefs_allocate slot enters.name).trans (keepsRefs_of_slots (t := u) rfl rfl)
  | timedOut t x now => exact keepsRefs_timeOutFills now t
  | flushed t x => exact keepsRefs_flush t
  | marked t x named => exact keepsRefs_markStale named t
  | recent | fetched | counted => exact keepsRefs_of_slots rfl rfl
  | movedOn => exact keepsRefs_refl _

theorem tableSteps_keepsRefs {p q : RunnerTable × PassState} (steps : TableSteps p q) : KeepsRefs p.1 q.1 := by
  induction steps with
  | refl => exact keepsRefs_refl p.1
  | tail _ step ih => exact ih.trans (tableStep_keepsRefs step)

theorem Sound.withTable {s : State} (h : Sound s) {t : RunnerTable} (keeps : KeepsRefs s.rt t) :
    Sound (s.withRt t) :=
  ⟨⟨h.core.list.withRt (keeps.names h.core.list.names) (h.core.list.refs.of_table keeps.holds keeps.bibs),
    h.core.band⟩, h.idle⟩

/-- Soundness reads the table, the band, the list and the board alone. -/
theorem Sound.congr {s t : State} (h : Sound s) (rt : t.rt = s.rt) (fc : t.fc = s.fc) (ls : t.ls = s.ls)
    (bi : t.bi = s.bi) : Sound t := by
  cases s
  cases t
  dsimp only at rt fc ls bi
  subst rt fc ls bi
  have list := h.core.list
  exact ⟨⟨⟨list.queue, list.refs, list.shape, list.image, list.lines, list.names⟩, h.core.band⟩, h.idle⟩

/-! ### Crossings (R45) -/

/-- A feature controller with the same features, messages and queues, whose mode changes only on an empty band. -/
theorem BandSide.congr {f f' : FeatureState} (h : BandSide [] f) (shown : f'.shown = f.shown)
    (stack : f'.stack = f.stack) (messages : f'.messages = f.messages) (queues : f'.queues = f.queues)
    (rotation : f'.rotation = f.rotation) (posting : f'.posting = f.posting)
    (mode : f'.mode = f.mode ∨ f.shown = none ∧ f.stack = []) : BandSide [] f' := by
  cases f
  cases f'
  dsimp only at shown stack messages queues rotation posting mode
  subst shown stack messages queues rotation posting
  refine ⟨h.levels, fun rotating => ?_, h.settled, h.stored, h.distinct, h.rotation, h.posting, h.queues, h.texts⟩
  rcases mode with rfl | ⟨-, rfl⟩
  · exact h.rotating rotating
  · exact ⟨Nat.zero_le 1, fun more => absurd rfl more⟩

theorem setLeader_sound {s : State} (h : Sound s) (pass : PassNo) : Sound (s.withFc (s.fc.setLeader pass)) := by
  cases pass <;> exact h.withFc (h.core.band.congr rfl rfl rfl rfl rfl rfl (.inl rfl)) (.refl _) rfl

theorem arrive_sound {i : Slot} {bib : Nat} (pass : PassNo) (x : Nat) {s : State} (h : Sound s)
    (named : HoldsBib s.rt i bib) : Sound (arrive i bib pass x s) :=
  h.of_list (arrive_onlyList ..) fun _ list => arrive_listSide pass x list named

theorem routePass_sound {i : Slot} (pass : PassNo) (x : Nat) {r : Record} {s : State} (h : Sound s)
    (named : HoldsBib s.rt i r.bib) : Sound (routePass i pass x r s) := by
  unfold routePass
  split
  · dsimp only
    split
    · exact requestFeature_sound (setLeader_sound h pass) named
    · exact arrive_sound pass x (setLeader_sound h pass) named
  · split
    · exact requestFeature_sound h named
    · exact arrive_sound pass x h named

theorem routeCrossing_sound {i : Slot} (cls : Class) (x : Nat) {r : Record} {s : State} (h : Sound s)
    (named : HoldsBib s.rt i r.bib) : Sound (routeCrossing i cls x r s) := by
  cases cls with
  | pass1 => exact routePass_sound .one x h named
  | pass2 => exact routePass_sound .two x h named
  | revision1 | revision2 => exact rerender_sound i h
  | duplicate | extra => exact h

theorem crossSlot_sound (i : Slot) (reader : Reader) (timed : Bool) (x : Nat) {s : State} (h : Sound s) :
    Sound (crossSlot i reader timed x s) := by
  cases occupied : s.rt.slots[i] with
  | none =>
    simp only [crossSlot, occupied]
    exact h
  | some r =>
    have recorded := h.withTable (tableStep_keepsRefs (recordAfter_step reader timed x occupied s.sa))
    have logged : Sound (recordedAndLogged i reader timed x r s) := by
      rw [recordedAndLogged_eq]
      exact recorded.congr rfl rfl rfl rfl
    have named : HoldsBib (recordedAndLogged i reader timed x r s).rt i (recordAfter reader timed x r s).bib := by
      rw [recordedAndLogged_eq]
      exact ⟨_, RunnerTable.put_slots_self .., rfl⟩
    rw [crossSlot_of_occupied reader timed x occupied, crossingRecency_eq]
    exact (routeCrossing_sound _ x logged named).withTable (keepsRefs_of_slots rfl rfl)

/-! ### Messages (R122 to R124) -/

theorem messages_set (f : FeatureState) (m n : Fin 8) (x : Option Message) :
    (f.messages.set m x)[n] = if n = m then x else f.messages[n] := by
  by_cases same : n = m
  · subst same
    simp
  · have : m.val ≠ n.val := fun e => same (Fin.ext e.symm)
    simp [Vector.getElem_set_ne _ _ this, same]

/-- A message stored or deleted: its state is that of its place, and it is deleted only from no place. -/
theorem setMessage_bandSide {f : FeatureState} {m : Fin 8} {x : Option Message} {posting : List (Fin 8)}
    (h : BandSide [] f) (state : ∀ msg ∈ x, MessageSound f m msg)
    (stored : x.isSome = true ∨ ∀ g ∈ f.shownAndStack, g.ref ≠ .message m)
    (text : ∀ msg ∈ x, ∀ line ∈ msg.lines, TextLineSound line) (places : posting.Perm (List.finRange 8)) :
    BandSide [] { f with messages := f.messages.set m x, posting } := by
  refine ⟨h.levels, h.rotating, fun n msg hn _ => ?_, fun g hg n hn => ?_, h.distinct, h.rotation, places,
    h.queues, fun n msg hn => ?_⟩
  · rw [messages_set] at hn
    split at hn
    · rename_i same
      subst same
      exact state msg hn
    · exact h.settled n msg hn List.not_mem_nil
  · show (f.messages.set m x)[n].isSome
    rw [messages_set]
    split
    · rename_i same
      subst same
      exact stored.resolve_right fun free => free g hg (messageOf_eq_some.mp hn)
    · exact h.stored g hg n hn
  · rw [messages_set] at hn
    split at hn
    · exact text msg hn
    · exact h.texts n msg hn

/-- No feature of a sound band refers to an EMPTY message (R122). -/
theorem ref_ne_of_empty {f : FeatureState} {m : Fin 8} (h : BandSide [] f) (empty : f.messages[m] = none) :
    ∀ g ∈ f.shownAndStack, g.ref ≠ .message m := fun g hg same => by
  have stored := h.stored g hg m (messageOf_eq_some.mpr same)
  rw [empty] at stored
  cases stored

/-- A WAITING message is sound where no feature refers to it. -/
theorem messageSound_of_free {f : FeatureState} {m : Fin 8} {msg : Message} (waiting : msg.state = .waiting)
    (free : ∀ g ∈ f.shownAndStack, g.ref ≠ .message m) : MessageSound f m msg := by
  refine ⟨?_, ?_⟩ <;> simp only [waiting, reduceCtorEq, false_iff, not_exists, not_and]
  · exact fun g hg => free g (by simp [FeatureState.shownAndStack, Option.mem_def.mp hg])
  · exact fun g hg => free g (by simp [FeatureState.shownAndStack, hg])

theorem postChecked_sound {m : Fin 8} (k : Level) (duration : Nat) {lines : List (List Byte)} {s : State}
    (h : Sound s) (text : ∀ line ∈ lines, TextLineSound line) : Sound (postChecked m k duration lines s) := by
  have band := h.core.band
  unfold postChecked
  split
  · rename_i empty
    have free := ref_ne_of_empty band empty
    have listed : m ∈ s.fc.posting := band.posting.mem_iff.mpr (List.mem_finRange m)
    refine selectOrTest_sound (h.withFc (setMessage_bandSide band ?_ (.inl rfl) ?_ ?_) (.refl _) rfl)
    · exact fun msg hm => Option.some.inj hm ▸ messageSound_of_free rfl free
    · exact fun msg hm => Option.some.inj hm ▸ text
    · exact ((List.perm_append_singleton m _).trans (List.perm_cons_erase listed).symm).trans band.posting
  · rename_i msg stored
    have posted : Sound (s.withFc (s.fc.repost m msg k duration lines)) := by
      refine h.withFc (setMessage_bandSide band (fun msg' hm => ?_) (.inl rfl) (fun msg' hm => ?_) band.posting)
        (.refl _) rfl
      · exact Option.some.inj hm ▸ band.settled m msg stored List.not_mem_nil
      · exact Option.some.inj hm ▸ text
    dsimp only
    split
    · split
      · exact selectFeature_sound posted
      · split
        · exact posted
        · exact testPreemption_sound posted
    · exact renderBand_sound posted
    · exact posted

theorem deleteStored_sound (m : Fin 8) {s : State} (h : Sound s) : Sound (deleteStored m s) := by
  unfold deleteStored
  split
  · exact h
  · rename_i msg stored
    split
    · exact endAndSelect_sound h
    · exact removeSuspended_sound h
    · rename_i waiting
      have band := h.core.band
      exact h.withFc (setMessage_bandSide (x := none) band (fun _ never => nomatch never)
        (.inr (ref_ne_of_waiting band stored waiting)) (fun _ never => nomatch never) band.posting) (.refl _) rfl

/-! ### Feature Setup (R132, R133) -/

theorem maskLevel_sound (k : Level) {s : State} (h : Sound s) : Sound (maskLevel k s) := by
  unfold maskLevel
  refine removeSuspended_sound ?_
  split
  · exact endShown_sound h.core
  · exact h

theorem foldl_maskLevel_sound (levels : List Level) {s : State} (h : Sound s) :
    Sound (levels.foldl (fun t k => maskLevel k t) s) := by
  induction levels generalizing s with
  | nil => exact h
  | cons k levels ih => exact ih (maskLevel_sound k h)

theorem maskLevels_sound (old new : BitVec 8) {s : State} (h : Sound s) : Sound (maskLevels old new s) :=
  foldl_maskLevel_sound _ h

end Sys2Proof.Machine
end

section
/-! Board operations, the resets and the passing of time keep the references sound, and with them every step
(R66, R129, R138, R152 to R172). -/

namespace Sys2Proof.Machine

/-! ### Board settings (R158 to R165) -/

/-- Soundness reads the layout and the image of the board block alone. -/
theorem Sound.withBoard {s : State} (h : Sound s) {bi : BoardState}
    (layout : bi.lineCount = s.bi.lineCount ∧ bi.bandHeight = s.bi.bandHeight) (image : bi.image = s.bi.image) :
    Sound (s.withBi bi) := by
  obtain ⟨count, height⟩ := layout
  have list := h.core.list
  have shape := list.shape
  refine ⟨⟨⟨list.queue, list.refs, ⟨?_, ?_, ?_, ?_, shape.top⟩, ⟨?_, ?_, ?_⟩, list.lines, list.names⟩, h.core.band⟩,
    fun none => h.idle (height.symm.trans none)⟩
  · exact count.trans_le shape.lines
  · exact height.trans_le shape.height
  · exact (height.trans_lt shape.fits).trans_eq count.symm
  · exact shape.buffers.trans (by rw [State.withBi_bi, count, height])
  · exact (congrArg _ image).trans (list.image.length.trans count.symm)
  · exact fun row mem => list.image.rows row (image ▸ mem)
  · rw [State.withBi_bi, image, height]
    exact list.image.list

/-! ### The clock, list and wave settings -/

theorem clockValueChanged_sound {s : State} (h : Sound s) : Sound (clockValueChanged s) :=
  headTest_sound (renderIdleClock_sound h)

theorem storeWave_sound (w : Wave) (entry : WaveEntry) {s : State} (h : Sound s) : Sound (storeWave w entry s) := by
  have stored : Sound (withWave w entry s) :=
    (h.withTable (tableSteps_keepsRefs (withWave_steps w entry s))).congr rfl rfl rfl rfl
  rw [storeWave_eq]
  split
  · exact renderIdleClock_sound stored
  · exact stored

theorem emptyBuffer_sound {j : Nat} {s : State} (h : Sound s) (due : s.ls.expired s.localTime j = true) :
    Sound (emptyBuffer j s) :=
  h.of_list (emptyBuffer_onlyList j s) fun _ list => emptyBuffer_listSide list (expired_lt due)

/-- The list settings are not read by soundness. -/
theorem withListSettings_sound {s : State} (h : Sound s) (minDwell lineExpiry leadDelay ageLimit : Nat) :
    Sound (s.withLs { s.ls with minDwell, lineExpiry, leadDelay, ageLimit }) := by
  have list := h.core.list
  have shape := list.shape
  exact ⟨⟨⟨list.queue, list.refs, ⟨shape.lines, shape.height, shape.fits, shape.buffers, shape.top⟩,
    ⟨list.image.length, list.image.rows, list.image.list⟩, list.lines, list.names⟩, h.core.band⟩, h.idle⟩

theorem listTiming_sound (minDwell lineExpiry leadDelay ageLimit : Nat) {s : State} (h : Sound s) :
    Sound (listTiming minDwell lineExpiry leadDelay ageLimit s) :=
  headTest_sound ((withListSettings_sound h _ _ _ _).of_list (expireLines_onlyList _ _) fun _ =>
    expireLines_listSide _)

/-! ### Board Layout (R152, R157) -/

theorem resizeImage_length (n : Nat) (image : List (List Cell)) : (resizeImage n image).length = n := by
  simp only [resizeImage, List.length_append, List.length_take, List.length_replicate]
  omega

theorem resizeImage_rows {n : Nat} {image : List (List Cell)} (h : ∀ row ∈ image, RowSound row) :
    ∀ row ∈ resizeImage n image, RowSound row := fun row mem => by
  rcases List.mem_append.mp mem with mem | mem
  · exact h row (List.mem_of_mem_take mem)
  · exact List.eq_of_mem_replicate mem ▸ rowSound_blankLine

theorem resizeImage_self (image : List (List Cell)) : resizeImage image.length image = image := by
  simp [resizeImage]

theorem listLaidOut_coreSound {n b : Nat} (w : Wave) {s : State} (h : Sound s) (lines : n ≤ 12) (height : b ≤ 4)
    (fits : b < n) : CoreSound [] (listLaidOut n b w s) := by
  have list := h.core.list
  unfold listLaidOut
  split
  · exact headTest_coreSound ⟨writeList_emptyList_listSide (s := withLayout n b w s) list.queue list.refs list.names
      lines height fits (resizeImage_length n _) (resizeImage_rows list.image.rows), h.core.band⟩
  · rename_i same
    obtain ⟨rfl, rfl⟩ : n = s.bi.lineCount ∧ b = s.bi.bandHeight := by
      simpa [not_or] using same
    have image : (withLayout s.bi.lineCount s.bi.bandHeight w s).bi.image = s.bi.image := by
      rw [← list.image.length]
      exact resizeImage_self _
    exact (h.withBoard (bi := (withLayout s.bi.lineCount s.bi.bandHeight w s).bi) ⟨rfl, rfl⟩ image).core

theorem layoutBand_sound (oldB : Nat) (oldWave : Wave) {s : State} (h : CoreSound [] s) :
    Sound (layoutBand oldB oldWave s) := by
  unfold layoutBand
  split
  · exact endShown_sound h
  · rename_i open_
    have sound : Sound s := ⟨h, fun none => absurd none open_⟩
    split
    · exact selectFeature_sound sound
    · split
      · exact renderBand_sound sound
      · split
        · exact renderIdleClock_sound sound
        · exact sound

theorem layoutChecked_sound {n b : Nat} (w : Wave) {s : State} (h : Sound s) (lines : n ≤ 12) (height : b ≤ 4)
    (fits : b < n) : Sound (layoutChecked n b w s) := by
  rw [layoutChecked_eq]
  exact Sound.withBoard (s := bandLaidOut n b w s)
    (layoutBand_sound _ _ (listLaidOut_coreSound w h lines height fits)) ⟨rfl, rfl⟩ rfl

/-! ### Power-on values and Race Clear (R138, R154, R155, R172) -/

theorem emptyTable_names : NamesSound RunnerTable.empty := fun i _ hr => nomatch (emptyTable_slot i).symm.trans hr

theorem featureAtPowerOn_bandSide : BandSide [] featureAtPowerOn := by
  have messages (m : Fin 8) : featureAtPowerOn.messages[m] = none := by simp [featureAtPowerOn]
  refine ⟨List.Pairwise.nil, fun mode => (nomatch mode), fun m msg hm => ?_, fun g hg => (nomatch hg), List.nodup_nil,
    .refl _, .refl _, fun k => ?_, fun m msg hm => ?_⟩
  · rw [messages] at hm
    cases hm
  · simp [featureAtPowerOn]
  · rw [messages] at hm
    cases hm

theorem raceCleared_bandSide (f : FeatureState) : BandSide [] f.raceCleared :=
  featureAtPowerOn_bandSide.congr rfl rfl rfl rfl rfl rfl (.inr ⟨rfl, rfl⟩)

theorem emptyTable_refs : RefsSound RunnerTable.empty [] [] :=
  ⟨List.nodup_nil, List.nodup_nil, fun i => by simp [RunnerTable.empty], fun _ hp => nomatch hp⟩

/-- The references of a band at power-on values. -/
theorem bandRefs_atPowerOn : bandRefs featureAtPowerOn = [] := by
  simp [bandRefs, queueRefs, featureRefs, featureAtPowerOn, FeatureState.shownAndStack]

/-- Every block as Race Clear leaves it, and the board as it was (R172). -/
def withRaceCleared (s : State) : State :=
  ((((((s.withCmu s.cmu.raceCleared).withRt RunnerTable.empty).withSa { position := none }).withSl
    SplitLog.empty).withFc s.fc.raceCleared).withLs s.ls.raceCleared).withAtt s.att.raceCleared

theorem raceClear_eq (s : State) : raceClear s = writeList (renderBand (withRaceCleared s)) := rfl

theorem raceClear_sound {s : State} (h : Sound s) : Sound (raceClear s) := by
  have list := h.core.list
  have shape := list.shape
  have empty : s.ls.raceCleared.buffers = List.replicate (s.bi.lineCount - s.bi.bandHeight) none := by
    rw [← shape.buffers]
    rfl
  have refs : RefsSound RunnerTable.empty (listRefs s.ls.raceCleared) (bandRefs s.fc.raceCleared) := by
    rw [listRefs_of_empty empty, show bandRefs s.fc.raceCleared = [] from bandRefs_atPowerOn]
    exact emptyTable_refs
  have band := raceCleared_bandSide s.fc
  have fits : 0 + (bandRows (withRaceCleared s)).length ≤ s.bi.image.length := by
    rw [Nat.zero_add, bandRows_length, list.image.length]
    exact shape.fits.le
  obtain ⟨length, rows⟩ := writeRows_sound fits (rowSound_bandRows emptyTable_names band.texts) list.image.rows
  rw [raceClear_eq]
  exact ⟨⟨writeList_listSide (s := renderBand (withRaceCleared s)) (Nat.zero_le 64) refs emptyTable_names
    (shapeSound_of_empty shape.lines shape.height shape.fits empty rfl) (linesSound_of_empty empty)
    (length.trans list.image.length) rows, band⟩, fun _ => rfl⟩

theorem rowSound_idleLineAtPowerOn : RowSound idleLineAtPowerOn :=
  rowSound_cellsOf false (text := [0x57#8, 0x41#8, 0x56#8, 0x45#8, 0x20#8, 0x30#8] ++ List.replicate 35 0x20#8 ++
    [0x2D#8, 0x3A#8, 0x2D#8, 0x2D#8, 0x3A#8, 0x2D#8, 0x2D#8]) rfl
    (textSound_append.mpr ⟨textSound_append.mpr ⟨by unfold TextSound charOk; decide, textSound_spaces 35⟩,
      by unfold TextSound charOk; decide⟩)

theorem atPowerOn_sound (requestLine : Vector Bool 4) (masterBusy resetHeld : Bool) (pending : List Instr) :
    Sound (State.atPowerOn requestLine masterBusy resetHeld pending) := by
  have empty : listAtPowerOn.buffers = List.replicate (boardAtPowerOn.lineCount - boardAtPowerOn.bandHeight) none :=
    rfl
  have refs : RefsSound RunnerTable.empty (listRefs listAtPowerOn) (bandRefs featureAtPowerOn) := by
    rw [listRefs_of_empty empty, bandRefs_atPowerOn]
    exact emptyTable_refs
  have shape : ShapeSound boardAtPowerOn listAtPowerOn :=
    shapeSound_of_empty (by decide) (by decide) (by decide) empty rfl
  have image : ImageSound boardAtPowerOn listAtPowerOn := by
    refine ⟨rfl, fun row mem => ?_, (listRows_raceCleared listAtPowerOn).symm⟩
    rcases List.mem_cons.mp mem with rfl | mem
    · exact rowSound_idleLineAtPowerOn
    · exact List.eq_of_mem_replicate mem ▸ rowSound_blankLine
  exact ⟨⟨⟨Nat.zero_le 64, refs, shape, image, linesSound_of_empty empty, emptyTable_names⟩,
    featureAtPowerOn_bandSide⟩, fun _ => rfl⟩

end Sys2Proof.Machine
end

section
/-! Every step keeps the references sound (R66): each operation of the five blocks, the two resets and the passing of
time. -/

namespace Sys2Proof.Machine

/-! ### The passing of time (R129) -/

theorem countDown_eq (f : FeatureState) :
    countDown f = f ∨ ∃ g g' : Feature, f.shown = some g ∧ g'.level = g.level ∧ g'.ref = g.ref ∧
      countDown f = { f with shown := some g' } := by
  cases shown : f.shown with
  | none =>
    left
    cases f
    dsimp only at shown
    subst shown
    rfl
  | some g => exact .inr ⟨g, { g with dwell := g.dwell.map fun r => r - 1 }, rfl, rfl, rfl, by
      simp only [countDown, shown, Option.map_some]⟩

/-- The shown feature with another dwell. -/
theorem withDwell_bandSide {f : FeatureState} {g g' : Feature} (h : BandSide [] f) (shown : f.shown = some g)
    (level : g'.level = g.level) (ref : g'.ref = g.ref) : BandSide [] { f with shown := some g' } := by
  have features := shownAndStack_of_some shown
  have message : g'.messageOf = g.messageOf := by simp only [Feature.messageOf, ref]
  have names (m : Fin 8) : (∃ d ∈ some g', d.ref = .message m) ↔ ∃ d ∈ f.shown, d.ref = .message m := by
    simp [shown, ref]
  refine ⟨?_, fun mode => ⟨(h.rotating mode).1, fun more d hd => ?_⟩, fun m msg hm _ => ?_, fun d hd => ?_, ?_,
    h.rotation, h.posting, h.queues, h.texts⟩
  · have levels := h.levels
    rw [features, List.pairwise_cons] at levels
    exact List.pairwise_cons.mpr ⟨fun d hd => level ▸ levels.1 d hd, levels.2⟩
  · exact Option.some.inj hd ▸ level.trans ((h.rotating mode).2 more g shown)
  · obtain ⟨wasShown, wasSuspended⟩ := h.settled m msg hm List.not_mem_nil
    exact ⟨wasShown.trans (names m).symm, wasSuspended⟩
  · rcases List.mem_cons.mp hd with rfl | hd
    · exact fun m hm => h.stored g (by simp [features]) m (message ▸ hm)
    · exact h.stored d (features ▸ List.mem_cons_of_mem g hd)
  · have distinct := h.distinct
    rw [features] at distinct
    refine distinct.perm (.of_eq ?_)
    show (g :: f.stack).filterMap Feature.messageOf = (g' :: f.stack).filterMap Feature.messageOf
    rw [List.filterMap_cons, List.filterMap_cons, message]

theorem bandRefs_withDwell {f : FeatureState} {g g' : Feature} (shown : f.shown = some g) (ref : g'.ref = g.ref) :
    bandRefs { f with shown := some g' } = bandRefs f := by
  have same : g'.refOf = g.refOf := by simp only [Feature.refOf, ref]
  have features : featureRefs (g' :: f.stack) = featureRefs (g :: f.stack) := by
    rw [featureRefs, featureRefs, List.filterMap_cons, List.filterMap_cons, same]
  rw [bandRefs, bandRefs, shownAndStack_of_some shown]
  exact congrArg _ features

theorem countDown_sound {s : State} (h : Sound s) : Sound (s.withFc (countDown s.fc)) := by
  have band := h.core.band
  rcases countDown_eq s.fc with same | ⟨g, g', shown, level, ref, eq⟩
  · rw [same]
    exact h.congr rfl rfl rfl rfl
  · rw [eq]
    refine ⟨h.core.withFc (withDwell_bandSide band shown level ref) (.of_eq (bandRefs_withDwell shown ref)),
      fun none => ?_⟩
    exact absurd ((h.idle none).symm.trans shown) (by simp)

theorem passMillisecond_sound {s : State} (h : Sound s) : Sound (passMillisecond s) := by
  unfold passMillisecond
  split
  · exact h
  · exact (countDown_sound h).congr rfl rfl rfl rfl

/-! ### Windows (R157, R161) -/

/-- The windows and the number of lines stay. -/
def KeepsWindows (s t : State) : Prop := t.bi.windows = s.bi.windows ∧ t.bi.lineCount = s.bi.lineCount

theorem KeepsWindows.trans {s t u : State} (h : KeepsWindows s t) (h' : KeepsWindows t u) : KeepsWindows s u :=
  ⟨h'.1.trans h.1, h'.2.trans h.2⟩

theorem OnlyList.keepsWindows {s t : State} (h : OnlyList s t) : KeepsWindows s t := by
  obtain ⟨_, _, _, _, _, _, rfl⟩ := onlyList_iff.mp h
  exact ⟨rfl, rfl⟩

theorem OnlyBand.keepsWindows {s t : State} (h : OnlyBand s t) : KeepsWindows s t := by
  obtain ⟨_, _, _, rfl⟩ := onlyBand_iff.mp h
  exact ⟨rfl, rfl⟩

theorem rerender_keepsWindows (i : Slot) (s : State) : KeepsWindows s (rerender i s) :=
  (rerender_onlyCells i s).onlyList.keepsWindows

theorem routePass_keepsWindows (i : Slot) (pass : PassNo) (x : Nat) (r : Record) (s : State) :
    KeepsWindows s (routePass i pass x r s) := by
  unfold routePass
  split
  · dsimp only
    split
    · exact (onlyBand_of_withFc (requestFeature_onlyBand _ _ _)).keepsWindows
    · exact KeepsWindows.trans (t := s.withFc (s.fc.setLeader pass)) ⟨rfl, rfl⟩
        (arrive_onlyList _ _ _ _ _).keepsWindows
  · split
    · exact (requestFeature_onlyBand _ _ s).keepsWindows
    · exact (arrive_onlyList _ _ _ _ s).keepsWindows

theorem routeCrossing_keepsWindows (i : Slot) (cls : Class) (x : Nat) (r : Record) (s : State) :
    KeepsWindows s (routeCrossing i cls x r s) := by
  cases cls with
  | pass1 => exact routePass_keepsWindows i .one x r s
  | pass2 => exact routePass_keepsWindows i .two x r s
  | revision1 | revision2 => exact rerender_keepsWindows i s
  | duplicate | extra => exact ⟨rfl, rfl⟩

theorem crossSlot_keepsWindows (i : Slot) (reader : Reader) (timed : Bool) (x : Nat) (s : State) :
    KeepsWindows s (crossSlot i reader timed x s) := by
  cases occupied : s.rt.slots[i] with
  | none =>
    simp only [crossSlot, occupied]
    exact ⟨rfl, rfl⟩
  | some r =>
    have logged : KeepsWindows s (recordedAndLogged i reader timed x r s) := by
      rw [recordedAndLogged_eq]
      exact ⟨rfl, rfl⟩
    rw [crossSlot_of_occupied reader timed x occupied, crossingRecency_eq]
    exact logged.trans (routeCrossing_keepsWindows i _ x _ _)

/-- Windows beyond a new layout are dropped (R157). -/
theorem windowsSound_dropWindows {n : Nat} {b : BoardState} (h : WindowsSound b) {c : BoardState}
    (windows : c.windows = b.windows) (count : c.lineCount = n) : WindowsSound (dropWindows n c) := by
  intro i w hw
  have kept : (if windowBeyond n b.windows[i] then none else b.windows[i]) = some w := by
    rw [← windows, ← hw]
    simp [dropWindows]
  split at kept
  · cases kept
  · rename_i within
    obtain ⟨address, lines, -, cells, last⟩ := h i w kept
    rw [kept] at within
    have below : w.lastLine < n := by simpa [windowBeyond] using within
    exact ⟨address, lines, below.trans_eq count.symm, cells, last⟩

theorem listLaidOut_windows (n b : Nat) (w : Wave) (s : State) :
    (listLaidOut n b w s).bi.windows = s.bi.windows ∧ (listLaidOut n b w s).bi.lineCount = n := by
  unfold listLaidOut
  split
  · obtain ⟨windows, count⟩ := (headTest_onlyList
      (writeList (emptyList (n - b) (withLayout n b w s)))).keepsWindows
    exact ⟨windows, count⟩
  · exact ⟨rfl, rfl⟩

theorem layoutChecked_windows (n b : Nat) (w : Wave) {s : State} (h : WindowsSound s.bi) :
    WindowsSound (layoutChecked n b w s).bi := by
  obtain ⟨windows, count⟩ := listLaidOut_windows n b w s
  obtain ⟨windows', count'⟩ := (layoutBand_onlyBand s.bi.bandHeight s.bi.clockWave (listLaidOut n b w s)).keepsWindows
  rw [layoutChecked_eq]
  exact windowsSound_dropWindows h (windows'.trans windows) (count'.trans count)

theorem windowSound_of_ok {n : Nat} {w : Window} (h : windowOk n w = true) : WindowSound n w := by
  simp only [windowOk, Bool.and_eq_true, decide_eq_true_eq] at h
  obtain ⟨⟨⟨⟨address, lines⟩, last⟩, cells⟩, end_⟩ := h
  exact ⟨address, lines, last, cells, end_⟩

theorem setWindow_windows (i : Fin 6) {definition : Option Window} {b : BoardState} (h : WindowsSound b)
    (fits : definition.all (windowOk b.lineCount) = true) : WindowsSound (setWindow i definition b) := by
  intro j w hw
  replace hw : (b.windows.set i definition)[j] = some w := hw
  by_cases same : j = i
  · subst same
    have defined : definition = some w := by simpa using hw
    rw [defined] at fits
    exact windowSound_of_ok fits
  · have : i.val ≠ j.val := fun e => same (Fin.ext e.symm)
    exact h j w (by simpa [Vector.getElem_set_ne _ _ this] using hw)

theorem windowsSound_of_keeps {s t : State} (h : WindowsSound s.bi) (keeps : KeepsWindows s t) :
    WindowsSound t.bi := by
  obtain ⟨windows, count⟩ := keeps
  intro i w hw
  rw [windows] at hw
  rw [count]
  exact h i w hw

theorem blockMove_windows {s t : State} (move : BlockMove s t) (h : WindowsSound s.bi) : WindowsSound t.bi := by
  cases move with
  | laidOut w => exact layoutChecked_windows _ _ w h
  | windowSet i fits => exact setWindow_windows i h fits
  | boardSet layout image windows => exact windowsSound_of_keeps h ⟨windows, layout.1⟩
  | clockChanged => exact windowsSound_of_keeps h (clockValueChanged_onlyList s).keepsWindows
  | clockRendered => exact windowsSound_of_keeps h (renderIdleClock_onlyImage s).onlyList.keepsWindows
  | waveStored w entry =>
    exact windowsSound_of_keeps (s := withWave w entry s) h (storeWave_onlyImage w entry s).onlyList.keepsWindows
  | visited i =>
    refine windowsSound_of_keeps (t := visitSlot i s) h ?_
    rcases visitSlot_cases i s s.sa with ⟨-, same⟩ | ⟨r, -, -, visit⟩
    · rw [same]
      exact ⟨rfl, rfl⟩
    · rw [visit]
      exact rerender_keepsWindows i (s.withRt _)
  | @crossed reader timed bib x i u bibs slot =>
    obtain ⟨only, -⟩ := crossingSlot_steps bibs slot
    refine windowsSound_of_keeps (s := u) ?_ (crossSlot_keepsWindows i reader timed x u)
    rw [only]
    exact h
  | filled fields found =>
    obtain ⟨u, -, eq⟩ := fillSlot_cases s.sa found (fillFields_name fields)
    rw [eq]
    exact windowsSound_of_keeps h (rerender_keepsWindows _ (s.withRt u))
  | corrected i pass tick =>
    rcases correctSlot_cases i pass tick s s.sa with eq | ⟨u, -, eq⟩
    · rw [eq]
      exact h
    · rw [eq]
      exact windowsSound_of_keeps h (rerender_keepsWindows _ (s.withRt u))
  | messagePosted m k duration =>
    exact windowsSound_of_keeps h (postChecked_onlyBand m k duration _ s).keepsWindows
  | messageDeleted m => exact windowsSound_of_keeps h (deleteStored_onlyBand m s).keepsWindows
  | shownEnded => exact windowsSound_of_keeps h (endAndSelect_onlyBand false s).keepsWindows
  | suspendedEnded gone => exact windowsSound_of_keeps h (removeSuspended_onlyBand false gone s).keepsWindows
  | featureSetUp =>
    exact windowsSound_of_keeps h
      (onlyBand_of_withFc ((maskLevels_onlyBand _ _ _).trans (selectOrTest_onlyBand _))).keepsWindows
  | headTested => exact windowsSound_of_keeps h (headTest_onlyList s).keepsWindows
  | lineExpired j => exact windowsSound_of_keeps h (emptyBuffer_onlyList j s).keepsWindows
  | bottomExpired j =>
    exact windowsSound_of_keeps h ((emptyBuffer_onlyList j s).trans (headTest_onlyList _)).keepsWindows
  | listTimed minDwell lineExpiry leadDelay ageLimit =>
    exact windowsSound_of_keeps (s := s.withLs _) h
      ((expireLines_onlyList _ _).trans (headTest_onlyList _)).keepsWindows
  | raceCleared => exact h
  | flushed =>
    rw [State.withRt_bi]
    exact h
  | stays | preloaded | staleFilled | fetched | fillsTimedOut | pinned | pinnedNew | unpinned => exact h

/-! ### Every operation of the five blocks -/

/-- An operation of the table and the pass alone. -/
theorem Sound.of_steps {s : State} (h : Sound s) {t : RunnerTable} {x : PassState}
    (steps : TableSteps (s.rt, s.sa) (t, x)) : Sound (s.withRt t) := h.withTable (tableSteps_keepsRefs steps)

theorem visited_sound (i : Slot) {s : State} (h : Sound s) :
    Sound ((visitSlot i s).withSa { position := nextPosition i }) := by
  rcases visitSlot_cases i s s.sa with ⟨-, same⟩ | ⟨r, -, step, visit⟩
  · rw [same]
    exact h.congr rfl rfl rfl rfl
  · rw [visit]
    exact (rerender_sound i (h.of_steps (.single step))).congr rfl rfl rfl rfl

theorem blockMove_sound {s t : State} (move : BlockMove s t) (h : Sound s) : Sound t := by
  cases move with
  | stays => exact h
  | clockChanged => exact clockValueChanged_sound h
  | clockRendered => exact renderIdleClock_sound h
  | waveStored w entry => exact storeWave_sound w entry h
  | visited i => exact visited_sound i h
  | @crossed reader timed bib x i u bibs slot =>
    obtain ⟨only, steps, -⟩ := crossingSlot_steps bibs slot
    refine crossSlot_sound i reader timed x ?_
    rw [only]
    exact h.of_steps steps
  | filled fields found =>
    obtain ⟨u, step, eq⟩ := fillSlot_cases s.sa found (fillFields_name fields)
    rw [eq]
    exact rerender_sound _ (h.of_steps (.single step))
  | preloaded bibs fields absent slot =>
    exact h.withTable (keepsRefs_allocate slot (applyFill_name (fillFields_name fields) (nameSound_of_none rfl)))
  | staleFilled => exact h.of_steps (.single (.counted s.rt s.sa _))
  | fetched n => exact h.of_steps (.single (.fetched s.rt s.sa s.localTime n))
  | fillsTimedOut => exact h.of_steps (.single (.timedOut s.rt s.sa s.localTime))
  | pinned i level room =>
    exact h.of_steps (setPin_steps s.rt s.sa i _ fun k hk => Option.some.inj hk ▸ ⟨level, room⟩)
  | pinnedNew bibs level absent room slot => exact h.withTable (keepsRefs_allocate slot (nameSound_of_none rfl))
  | unpinned i => exact h.of_steps (setPin_steps s.rt s.sa i none fun k hk => nomatch hk)
  | corrected i pass tick =>
    rcases correctSlot_cases i pass tick s s.sa with eq | ⟨u, step, eq⟩
    · rw [eq]
      exact h
    · rw [eq]
      exact rerender_sound i (h.of_steps (.single step))
  | flushed => exact h.withTable (keepsRefs_flush s.rt)
  | messagePosted m k duration text => exact postChecked_sound k duration h text
  | messageDeleted m => exact deleteStored_sound m h
  | shownEnded => exact endAndSelect_sound h
  | suspendedEnded gone => exact removeSuspended_sound h
  | featureSetUp mode mask leaderLevel dwell idle =>
    exact selectOrTest_sound (maskLevels_sound _ mask
      (h.withFc (h.core.band.congr rfl rfl rfl rfl rfl rfl idle) (.refl _) rfl))
  | headTested => exact headTest_sound h
  | lineExpired j due => exact emptyBuffer_sound h due
  | bottomExpired j due => exact headTest_sound (emptyBuffer_sound h due)
  | listTimed minDwell lineExpiry leadDelay ageLimit => exact listTiming_sound _ _ _ _ h
  | raceCleared => exact raceClear_sound h
  | laidOut w lines height fits => exact layoutChecked_sound w h lines height fits
  | boardSet layout image => exact h.withBoard layout image
  | windowSet i => exact h.withBoard ⟨rfl, rfl⟩ rfl

theorem blockMove_referencesSound {s t : State} (move : BlockMove s t) (h : ReferencesSound s) :
    ReferencesSound t := by
  obtain ⟨sound, windows⟩ := (referencesSound_iff s).mp h
  exact (referencesSound_iff t).mpr ⟨blockMove_sound move sound, blockMove_windows move windows⟩

/-! ### Every step -/

/-- The references read the five blocks alone. -/
theorem ReferencesSound.congr {s t : State} (h : ReferencesSound s) (blocks : t.blocks = s.blocks) :
    ReferencesSound t := by
  obtain ⟨rt, -, fc, ls, bi⟩ := blocks_eq_iff.mp blocks
  obtain ⟨sound, windows⟩ := (referencesSound_iff s).mp h
  exact (referencesSound_iff t).mpr ⟨sound.congr rt fc ls bi, bi ▸ windows⟩

theorem atPowerOn_referencesSound (requestLine : Vector Bool 4) (masterBusy resetHeld : Bool)
    (pending : List Instr) : ReferencesSound (State.atPowerOn requestLine masterBusy resetHeld pending) := by
  refine (referencesSound_iff _).mpr ⟨atPowerOn_sound .., fun i w hw => ?_⟩
  have unused : boardAtPowerOn.windows[i] = none := by simp [boardAtPowerOn]
  exact nomatch unused.symm.trans hw

theorem powerOn_referencesSound {s t : State} (h : execPowerOn s = .next t) : ReferencesSound t := by
  have start := atPowerOn_referencesSound s.lc.requestLine s.lc.masterBusy false s.pending
  rw [← Host.Outcome.next.inj h, startScan, buildFrom_eq]
  exact blockMove_referencesSound (.boardSet ⟨rfl, rfl⟩ rfl rfl) (start.congr rfl)

theorem exec_referencesSound {i : Instr} {s t : State} (h : exec i s = .next t) (hs : ReferencesSound s) :
    ReferencesSound t := by
  by_cases hp : i = .powerOn
  · subst hp
    exact powerOn_referencesSound h
  · by_cases hr : i = .resetAsserted
    · subst hr
      exact Host.Outcome.next.inj h ▸ atPowerOn_referencesSound ..
    · obtain ⟨u, v, before, move, after⟩ := exec_movesBlocks h hp hr
      exact (blockMove_referencesSound move (hs.congr before)).congr after

theorem passMillisecond_referencesSound {s : State} (h : ReferencesSound s) :
    ReferencesSound (passMillisecond s) := by
  obtain ⟨sound, windows⟩ := (referencesSound_iff s).mp h
  refine (referencesSound_iff _).mpr ⟨passMillisecond_sound sound, windowsSound_of_keeps windows ?_⟩
  unfold passMillisecond
  split <;> exact ⟨rfl, rfl⟩

/-- Settles O51: every operation of the five blocks keeps the list's side and the band's, the windows and the hold
counts; the resets start from a sound state, and time moves a dwell alone. -/
theorem everyStepKeepsReferencesSound : Obligations.EveryStepKeepsReferencesSound := fun _ _ hs step =>
  step_keeps (fun _ _ h => h.congr rfl) (fun _ _ _ => exec_referencesSound)
    (fun _ => passMillisecond_referencesSound) step hs

end Sys2Proof.Machine
end

section
/-! The requests on the runner table and its two events: what each checks and what it leaves (chapter 4). -/

namespace Sys2Proof.Machine

/-! ### The checks of a bib (R80 to R83) -/

theorem bibOk_of_bad {bib : Nat} (bad : bib = 0 ∨ 65534 < bib) : (!bibOk bib) = true := by
  rw [(bibOk_eq_false_iff bib).mpr bad]
  rfl

theorem bibOk_of_range {bib : Nat} (low : 1 ≤ bib) (high : bib ≤ 65534) : ¬ (!bibOk bib) = true := by
  rw [(bibOk_iff bib).mpr ⟨low, high⟩]
  decide

section
variable {bib : Nat} {s : State} {act : Slot → Answer}

theorem withBib_of_bad (bad : bib = 0 ∨ 65534 < bib) : withBib bib s act = .refused .badBib s :=
  if_pos (bibOk_of_bad bad)

theorem withBib_of_absent (low : 1 ≤ bib) (high : bib ≤ 65534) (absent : s.rt.lookup bib = none) :
    withBib bib s act = .refused .notPresent s := by
  rw [withBib, if_neg (bibOk_of_range low high), absent]

theorem withBib_of_found {i : Slot} (low : 1 ≤ bib) (high : bib ≤ 65534) (found : s.rt.lookup bib = some i) :
    withBib bib s act = act i := by
  rw [withBib, if_neg (bibOk_of_range low high), found]

end

/-! ### Roster Fill (R76 to R78) -/

/-- The fields of a Roster Fill that one of checks 2 to 5 fails (R76). -/
def BadFill (n wave distance time : Nat) : Prop :=
  20 < n ∨ (7 < wave ∧ wave ≠ 0xFF) ∨ (distance = 0 ↔ time ≠ 0xFFFFFFFF) ∨ 60000 < distance ∨
    (time ≠ 0xFFFFFFFF ∧ 16777215 < time)

/-- The fields a Roster Fill carries when no check fails (R63, R76). -/
def carriedFields (n wave distance time : Nat) (name : List Byte) : FillFields where
  name := if n = 0 then none else some ((name.take n).map (keepChar 0x7E#8))
  wave := toFin 8 wave
  upstream := if distance = 0 then none else some (distance, time)

theorem upstream_mismatch_iff (distance time : Nat) :
    ((distance == 0) != (time == 0xFFFFFFFF)) = true ↔ (distance = 0 ↔ time ≠ 0xFFFFFFFF) := by
  by_cases none : distance = 0 <;> by_cases absent : time = 0xFFFFFFFF <;> simp [none, absent]

theorem fillFields_of_bad {n wave distance time : Nat} (name : List Byte) (bad : BadFill n wave distance time) :
    fillFields n wave distance time name = none := by
  unfold fillFields
  split
  · rfl
  split
  · rfl
  split
  · rfl
  split
  · rfl
  · rename_i length wave' pair range
    rcases bad with bad | bad | bad | bad
    · exact absurd bad length
    · exact absurd bad.symm wave'
    · exact absurd ((upstream_mismatch_iff distance time).mpr bad) pair
    · exact absurd bad range

theorem fillFields_of_good {n wave distance time : Nat} (name : List Byte)
    (good : ¬ BadFill n wave distance time) :
    fillFields n wave distance time name = some (carriedFields n wave distance time name) := by
  simp only [BadFill, not_or] at good
  obtain ⟨length, wave', pair, far, late⟩ := good
  rw [fillFields, if_neg length, if_neg fun bad => wave' bad.symm, if_neg ((upstream_mismatch_iff ..).not.mpr pair),
    if_neg (not_or.mpr ⟨far, late⟩)]
  rfl

/-- The carried fields replace the record's, the others stay (R77). -/
theorem applyFill_carriedFields (n wave distance time : Nat) (name : List Byte) (r : Record) :
    applyFill (carriedFields n wave distance time name) r =
      { r with
        name :=
          if n = 0 then r.name
          else some ((name.take n).map fun x => if 0x20#8 ≤ x ∧ x ≤ 0x7E#8 then x else 0x3F#8)
        fillWave := if h : wave < 8 then some ⟨wave, h⟩ else r.fillWave
        upstream := if distance = 0 then r.upstream else some (distance, time)
        fill := .filled } := by
  have names : (carriedFields n wave distance time name).name.or r.name =
      if n = 0 then r.name
      else some ((name.take n).map fun x => if 0x20#8 ≤ x ∧ x ≤ 0x7E#8 then x else 0x3F#8) := by
    unfold carriedFields
    split <;> rfl
  have waves : (carriedFields n wave distance time name).wave.or r.fillWave =
      if h : wave < 8 then some ⟨wave, h⟩ else r.fillWave := by
    by_cases h : wave < 8
    · rw [dif_pos h, carriedFields, toFin_of_lt h]
      rfl
    · rw [dif_neg h, carriedFields, toFin_of_le (Nat.le_of_not_lt h)]
      rfl
  have upstreams : (carriedFields n wave distance time name).upstream.or r.upstream =
      if distance = 0 then r.upstream else some (distance, time) := by
    by_cases here : distance = 0 <;> simp [carriedFields, here]
  rw [applyFill, names, waves, upstreams]

section
variable {bib n wave distance time : Nat} (flag : Bool) {name : List Byte} {s : State}

theorem rosterFill_of_badBib (bad : bib = 0 ∨ 65534 < bib) :
    rosterFill bib flag n wave distance time name s = .refused .badBib s := if_pos (bibOk_of_bad bad)

theorem rosterFill_of_badValue (low : 1 ≤ bib) (high : bib ≤ 65534) (bad : BadFill n wave distance time) :
    rosterFill bib flag n wave distance time name s = .refused .badValue s := by
  rw [rosterFill, if_neg (bibOk_of_range low high), fillFields_of_bad name bad]

theorem rosterFill_of_found {i : Slot} (low : 1 ≤ bib) (high : bib ≤ 65534)
    (good : ¬ BadFill n wave distance time) (found : s.rt.lookup bib = some i) :
    rosterFill bib flag n wave distance time name s =
      .done (fillSlot i bib (carriedFields n wave distance time name) s) := by
  rw [rosterFill, if_neg (bibOk_of_range low high), fillFields_of_good name good, found]

theorem rosterFill_of_absent (low : 1 ≤ bib) (high : bib ≤ 65534) (good : ¬ BadFill n wave distance time)
    (absent : s.rt.lookup bib = none) :
    rosterFill bib flag n wave distance time name s =
      if flag then preload bib (carriedFields n wave distance time name) s else .done (staleFill s) := by
  rw [rosterFill, if_neg (bibOk_of_range low high), fillFields_of_good name good, absent]

end

/-- Settles O32: the checks in order, then the fill, the preload or the stale fill. -/
theorem rosterFillResult : Obligations.RosterFillResult := by
  intro c p s hd l bib n wave distance time bad filled
  have filledEq (r : Record) :
      filled r = derive s.cmu.waves s.ci (applyFill (carriedFields n wave distance time (l.drop 11)) r) := by
    rw [applyFill_carriedFields]
  rw [show exec (.rosterFill p) s = execRosterFill p s from rfl]
  refine ⟨fun badBib => receive_of_refused hd (rosterFill_of_badBib _ badBib), fun low high =>
    ⟨fun h => receive_of_refused hd (rosterFill_of_badValue _ low high h), fun good =>
      ⟨fun i r found occupied => ?_, fun absent flag => ?_, fun i t absent flag slot => ?_⟩⟩⟩
  · refine receive_of_done hd ((rosterFill_of_found _ low high good found).trans (congrArg Answer.done ?_))
    rw [filledEq]
    simp only [fillSlot, occupied]
    rfl
  · refine receive_of_done hd ((rosterFill_of_absent _ low high good absent).trans (if_neg ?_))
    simpa using flag
  · refine receive_of_done hd ((rosterFill_of_absent _ low high good absent).trans ((if_pos ?_).trans ?_))
    · simpa using flag
    · rw [filledEq] at slot
      rw [preload, slot]

/-! ### Fetch Fills and timeouts (R73, R74) -/

theorem fetchFillsResult : Claims.FetchFillsResult := by
  intro c p s hd n taken
  rw [show exec (.fetchFills p) s = execFetchFills p s from rfl]
  refine ⟨(takeFills s.localTime n s.rt.fills).1, receive_of_done hd ?_, takeFills_length .., fun k e hk => ?_⟩
  · have left : ((takeFills s.localTime n s.rt.fills).1.filter fun e => !e.sent).length =
        (s.rt.fills.filter fun e => !e.sent).length - taken.length := by
      rw [takeFills_waiting, List.length_drop, List.length_take]
      omega
    have bibs := takeFills_taken s.localTime n s.rt.fills
    show Answer.done (State.enqueueReply (s.withRt { s.rt with fills := (takeFills s.localTime n s.rt.fills).1 }) c
      (.fillList ((takeFills s.localTime n s.rt.fills).1.filter fun e => !e.sent).length
        (takeFills s.localTime n s.rt.fills).2)) = _
    rw [left, bibs]
    rfl
  · rw [takeFills_getElem?, hk]
    rfl

theorem fillTimeoutResult : Claims.FillTimeoutResult := by
  intro s running dueAt
  rw [show exec .fillTimeout s = execFillTimeout s from rfl]
  have due (e : FillRequest) : fillExpired s.localTime e = true ↔ dueAt e := fillExpired_iff _ e
  have order : (timeOutFills s.localTime s.rt).order = s.rt.order := by rw [timeOutFills_eq]
  have holds : (timeOutFills s.localTime s.rt).holds = s.rt.holds := by rw [timeOutFills_eq]
  have staleFills : (timeOutFills s.localTime s.rt).staleFills = s.rt.staleFills := by rw [timeOutFills_eq]
  refine ⟨_, event_of_running _ running, rfl, order, holds, staleFills, fillGivenUp s.localTime, fun e => ?_,
    ⟨timedOutEntry s.localTime, fun e => ⟨fun h => if_pos ((due e).mpr h), fun h => if_neg ((due e).not.mpr h)⟩,
      ?_⟩, fun i => ?_⟩
  · rw [fillGivenUp_iff, due]
  · exact congrArg RunnerTable.fills (timeOutFills_eq s.localTime s.rt)
  · exact timeOutFills_slots s.localTime s.rt i

/-- Settles O33: the requests sent, and those that time out. -/
theorem fillRequestsAreSentAndTimeOut : Obligations.FillRequestsAreSentAndTimeOut :=
  ⟨fetchFillsResult, fillTimeoutResult⟩

/-! ### Pin (R80) -/

section
variable {bib level : Nat} {s : State}

theorem pinBib_of_badValue (low : 1 ≤ bib) (high : bib ≤ 65534) (bad : level = 0 ∨ 7 < level) :
    pinBib bib level s = .refused .badValue s := by
  rw [pinBib, if_neg (bibOk_of_range low high)]
  rcases bad with rfl | bad
  · rfl
  · rw [toFin_of_le bad]

/-- The level of a good Pin is one of those a record may take. -/
theorem pinLevel_of_good {k : Level} (positive : 1 ≤ level) (same : k.val = level) :
    toFin 8 level = some k ∧ k ≠ 0 := by
  subst same
  exact ⟨toFin_of_lt k.isLt, fun zero => by simp [zero] at positive⟩

theorem pinBib_of_found {i : Slot} {k : Level} (low : 1 ≤ bib) (high : bib ≤ 65534) (positive : 1 ≤ level)
    (same : k.val = level) (found : s.rt.lookup bib = some i) :
    pinBib bib level s =
      if s.rt.isPinned i ∨ s.rt.pinnedCount < 32 then .done (s.withRt (s.rt.setPin i (some k)))
      else .refused .pinLimit s := by
  obtain ⟨good, nonzero⟩ := pinLevel_of_good positive same
  rw [pinBib, if_neg (bibOk_of_range low high), good, found]
  exact if_neg nonzero

theorem pinBib_of_absent {k : Level} (low : 1 ≤ bib) (high : bib ≤ 65534) (positive : 1 ≤ level)
    (same : k.val = level) (absent : s.rt.lookup bib = none) :
    pinBib bib level s = if s.rt.pinnedCount < 32 then pinAbsent bib k s else .refused .pinLimit s := by
  obtain ⟨good, nonzero⟩ := pinLevel_of_good positive same
  rw [pinBib, if_neg (bibOk_of_range low high), good, absent]
  exact if_neg nonzero

end

/-- Settles O34: the checks in order, then a bib in the table or an absent one, with room for its pin or not. -/
theorem pinResult : Obligations.PinResult := by
  intro c p s hd bib level refused
  rw [show exec (.pin p) s = execPin p s from rfl]
  refine ⟨fun bad => receive_of_refused hd (if_pos (bibOk_of_bad bad)), fun low high =>
    ⟨fun bad => receive_of_refused hd (pinBib_of_badValue low high bad), fun k positive same =>
      ⟨fun i r found occupied => ?_, fun absent => ?_⟩⟩⟩
  · have looked := pinBib_of_found low high positive same found
    have pinned := isPinned_of_occupied occupied
    refine ⟨fun room => receive_of_done hd (looked.trans ((if_pos (pinned ▸ room)).trans ?_)),
      fun unpinned full => receive_of_refused hd (looked.trans (if_neg ?_))⟩
    · rw [setPin_of_occupied _ occupied]
      rfl
    · simp [pinned, unpinned, full]
  · have looked := pinBib_of_absent low high positive same absent
    refine ⟨fun full => receive_of_refused hd (looked.trans (if_neg (Nat.not_lt.mpr full))),
      fun i t room slot => receive_of_done hd (looked.trans ((if_pos room).trans ?_))⟩
    have allocated : s.rt.allocate { derive s.cmu.waves s.ci (Record.fresh bib .unfilled) with pin := some k } =
        some (i, t) := slot
    rw [pinAbsent, allocated]

/-! ### Unpin, Read Record and Table Flush (R81, R82, R85) -/

theorem unpinAndReadRecordResult : Claims.UnpinAndReadRecordResult := by
  intro c p s bib
  rw [show exec (.unpin p) s = execUnpin p s from rfl, show exec (.readRecord p) s = execReadRecord p s from rfl]
  refine ⟨fun hd => ⟨fun bad => receive_of_refused hd (withBib_of_bad bad), fun low high =>
    ⟨fun absent => receive_of_refused hd (withBib_of_absent low high absent), fun i r found occupied => ?_⟩⟩,
    fun hd => ⟨fun bad => receive_of_refused hd (withBib_of_bad bad), fun low high =>
    ⟨fun absent => receive_of_refused hd (withBib_of_absent low high absent), fun i r found occupied => ?_⟩⟩⟩
  · refine receive_of_done hd ((withBib_of_found low high found).trans ?_)
    rw [setPin_of_occupied _ occupied]
    rfl
  · refine receive_of_done hd ((withBib_of_found low high found).trans ?_)
    simp only [readSlot, occupied]
    rfl

theorem tableFlushResult : Claims.TableFlushResult := by
  intro c p s hd kept
  rw [show exec (.tableFlush p) s = execTableFlush p s from rfl]
  have same : kept = s.rt.kept := rfl
  refine ⟨s.withRt s.rt.flush, receive_of_done hd rfl, by rw [OnlyTable, State.withRt_rt], fun i => ?_, ?_, ?_, ?_, ?_⟩
  · rw [same]
    exact flush_slots s.rt i
  all_goals simp only [State.withRt_rt, RunnerTable.flush, same]

/-- Settles O35: the two requests on one bib, and the flush. -/
theorem unpinReadAndFlush : Obligations.UnpinReadAndFlush := ⟨unpinAndReadRecordResult, tableFlushResult⟩

/-! ### Correct Pass and the visits of a pass (R83, R100, R101) -/

/-- A pass number or a tick that Correct Pass refuses (R83). -/
def BadCorrection (number tick : Nat) : Prop :=
  (number ≠ 1 ∧ number ≠ 2) ∨ (16777215 < tick ∧ tick ≠ 0xFFFFFFFF)

theorem correctTickOk_iff (l : List Byte) (i : Nat) :
    correctTickOk (optLongAt l i) = true ↔ longAt l i ≤ 16777215 ∨ longAt l i = 0xFFFFFFFF := by
  unfold optLongAt
  split
  · rename_i clear
    simp [correctTickOk, clear]
  · rename_i tick
    simp [correctTickOk, tick]

theorem correctPass_of_badValue {bib number i : Nat} {l : List Byte} {s : State} (low : 1 ≤ bib)
    (high : bib ≤ 65534) (bad : BadCorrection number (longAt l i)) :
    correctPass bib number (optLongAt l i) s = .refused .badValue s := by
  rw [correctPass, if_neg (bibOk_of_range low high)]
  rcases bad with ⟨one, two⟩ | ⟨late, set⟩
  · rw [passNoOf, if_neg one, if_neg two]
  · have refused : ¬ correctTickOk (optLongAt l i) = true := by
      rw [correctTickOk_iff]
      exact not_or.mpr ⟨Nat.not_le.mpr late, set⟩
    split
    · rfl
    · exact if_neg refused

theorem correctPass_of_good {bib number i : Nat} {l : List Byte} {s : State} (low : 1 ≤ bib) (high : bib ≤ 65534)
    (good : ¬ BadCorrection number (longAt l i)) :
    correctPass bib number (optLongAt l i) s =
      withBib bib s fun j =>
        .done (correctSlot j (if number = 1 then .one else .two) (optLongAt l i) s) := by
  obtain ⟨numbered, early⟩ := not_or.mp good
  have pass : passNoOf number = some (if number = 1 then .one else .two) := by
    unfold passNoOf
    by_cases one : number = 1
    · rw [if_pos one, if_pos one]
    · have two : number = 2 := by_contra fun other => numbered ⟨one, other⟩
      rw [if_neg one, if_neg one, if_pos two]
  have ok : correctTickOk (optLongAt l i) = true := (correctTickOk_iff l i).mpr (by omega)
  rw [correctPass, if_neg (bibOk_of_range low high), pass]
  exact if_pos ok

theorem correctedPass_optLongAt (l : List Byte) (i : Nat) :
    correctedPass (optLongAt l i) =
      if longAt l i = 0xFFFFFFFF then none
      else some { tick := longAt l i, source := .corrected, count := 1 } := by
  unfold optLongAt
  split <;> rfl

theorem correctPassResult : Claims.CorrectPassResult := by
  intro c p s hd l bib number tick refused bad pass
  rw [show exec (.correctPass p) s = execCorrectPass p s from rfl]
  refine ⟨fun badBib => receive_of_refused hd (if_pos (bibOk_of_bad badBib)), fun low high =>
    ⟨fun h => receive_of_refused hd (correctPass_of_badValue low high h), fun good =>
      ⟨fun absent => ?_, fun i r found occupied => ?_⟩⟩⟩
  · exact receive_of_refused hd ((correctPass_of_good low high good).trans (withBib_of_absent low high absent))
  · refine receive_of_done hd ((correctPass_of_good low high good).trans ((withBib_of_found low high found).trans ?_))
    have stored : r.withPass (if number = 1 then .one else .two) (correctedPass (optLongAt l 3)) =
        if number = 1 then { r with pass1 := pass } else { r with pass2 := pass } := by
      rw [correctedPass_optLongAt]
      by_cases one : number = 1
      · rw [if_pos one, if_pos one]
        rfl
      · rw [if_neg one, if_neg one]
        rfl
    simp only [correctSlot, occupied, stored]
    rfl

theorem passVisitResult : Claims.PassVisitResult := by
  intro i s running position next
  have visit : exec .passVisit s = .next ((visitSlot i s).withSa next) := by
    rw [show exec .passVisit s = execPassVisit s from rfl, execPassVisit, event_of_running _ running]
    simp only [position]
    rfl
  refine ⟨fun r occupied stale => ?_, fun fresh => ?_⟩
  · rw [visit]
    simp only [visitSlot, State.deriveSlot, occupied, stale, if_true]
    rfl
  · rw [visit]
    have left : visitSlot i s = s := by
      cases occupied : s.rt.slots[i] with
      | none => simp only [visitSlot, occupied]
      | some r =>
        simp only [visitSlot, occupied, fresh r occupied]
        rfl
    rw [left]

/-- Settles O36: the correction of a pass, and the visits of a recomputation pass. -/
theorem correctionsAndVisits : Obligations.CorrectionsAndVisits := ⟨correctPassResult, passVisitResult⟩

end Sys2Proof.Machine
end

section
/-! Split arithmetic and displayed values: the candidate taken (R91), the values derived from a pass (R89 to R93)
and the texts that show them (R95 to R97). -/

namespace Sys2Proof.Machine

/-! ### The candidate taken (R91) -/

theorem candidateKept_iff (distance time : Nat) (u : Nat × Nat) :
    candidateKept distance time u = true ↔ u.1 < distance ∧ u.2 < time := by
  simp [candidateKept]

theorem filter_candidateKept_eq_nil {distance time : Nat} {candidates : List (Nat × Nat)}
    (none_below : ∀ u ∈ candidates, ¬ (u.1 < distance ∧ u.2 < time)) :
    candidates.filter (candidateKept distance time) = [] :=
  List.filter_eq_nil_iff.mpr fun u hu => mt (candidateKept_iff distance time u).mp (none_below u hu)

theorem mem_of_farthest {l : List (Nat × Nat)} {u : Nat × Nat} (h : farthest l = some u) : u ∈ l := by
  induction l generalizing u with
  | nil => exact nomatch h
  | cons c rest ih =>
    cases tail : farthest rest with
    | none =>
      rw [farthest, tail] at h
      exact Option.some.inj h ▸ List.mem_cons_self
    | some d =>
      by_cases farther : c.1 < d.1
      · simp only [farthest, tail, if_pos farther] at h
        exact List.mem_cons_of_mem c (ih (tail.trans h))
      · simp only [farthest, tail, if_neg farther] at h
        exact Option.some.inj h ▸ List.mem_cons_self

/-- A candidate no later one lies beyond is taken before all of them: ties go to the earlier. -/
theorem farthest_cons_of_forall_le {c : Nat × Nat} {rest : List (Nat × Nat)} (le : ∀ u ∈ rest, u.1 ≤ c.1) :
    farthest (c :: rest) = some c := by
  cases tail : farthest rest with
  | none => rw [farthest, tail]
  | some d =>
    have near : ¬ c.1 < d.1 := Nat.not_lt.mpr (le d (mem_of_farthest tail))
    simp only [farthest, tail, if_neg near]

theorem farthest_append_cons {c : Nat × Nat} {before after : List (Nat × Nat)}
    (lt : ∀ u ∈ before, u.1 < c.1) (le : ∀ u ∈ after, u.1 ≤ c.1) :
    farthest (before ++ c :: after) = some c := by
  induction before with
  | nil => exact farthest_cons_of_forall_le le
  | cons b before ih =>
    obtain ⟨b_lt, before_lt⟩ := List.forall_mem_cons.mp lt
    simp only [List.cons_append, farthest, ih before_lt, if_pos b_lt]

/-- The candidate taken is the farthest of the kept, the first of those at its distance (R91). -/
theorem farthest_filter_candidateKept {distance time : Nat} {c : Nat × Nat} {before after : List (Nat × Nat)}
    (kept : c.1 < distance ∧ c.2 < time)
    (lt : ∀ u ∈ before, u.1 < distance → u.2 < time → u.1 < c.1)
    (le : ∀ u ∈ after, u.1 < distance → u.2 < time → u.1 ≤ c.1) :
    farthest ((before ++ c :: after).filter (candidateKept distance time)) = some c := by
  rw [List.filter_append, List.filter_cons_of_pos ((candidateKept_iff _ _ _).mpr kept)]
  refine farthest_append_cons (fun u hu => ?_) fun u hu => ?_
  · obtain ⟨mem, is_kept⟩ := List.mem_filter.mp hu
    obtain ⟨near, early⟩ := (candidateKept_iff _ _ _).mp is_kept
    exact lt u mem near early
  · obtain ⟨mem, is_kept⟩ := List.mem_filter.mp hu
    obtain ⟨near, early⟩ := (candidateKept_iff _ _ _).mp is_kept
    exact le u mem near early

/-! ### Derived values (R89 to R93) -/

section
variable {course distance time : Nat} {candidates : List (Nat × Nat)}

/-- Without a distance or a kept candidate a pass has its race time alone (R90, R91). -/
theorem deriveSpan_of_no_candidate
    (h : distance = 0 ∨ ∀ u ∈ candidates, ¬ (u.1 < distance ∧ u.2 < time)) :
    deriveSpan course distance time candidates = { Derived.absent with raceTime := some time } := by
  rcases h with rfl | none_below
  · simp only [deriveSpan, if_true]
  · rw [deriveSpan, filter_candidateKept_eq_nil none_below]
    exact ite_self _

/-- Pace and projection over the span from the candidate taken, at the end of the course the pace alone (R92,
R93). -/
theorem deriveSpan_of_farthest {du tu : Nat} (pos : 0 < distance)
    (taken : farthest (candidates.filter (candidateKept distance time)) = some (du, tu)) :
    let P := exactPace (time - tu) (distance - du)
    let F := exactProjection time (time - tu) (distance - du) (course - distance)
    deriveSpan course distance time candidates =
      { Derived.absent with
        raceTime := some time
        pace := some (min P 359900)
        paceCapped := decide (359900 < P)
        projection := if distance = course then none else some (min F 16777215)
        projCapped := decide (distance ≠ course ∧ 16777215 < F) } := by
  intro P F
  simp only [deriveSpan, if_neg (Nat.ne_of_gt pos), taken]
  by_cases finish : distance = course
  · subst finish
    simp only [if_true, ne_eq, not_true_eq_false, false_and, decide_false]
    rfl
  · simp only [finish, if_false, ne_eq, not_false_eq_true, true_and]
    rfl

end

section
variable {waves : Vector WaveEntry 8} {w : Wave} {course distance x gun : Nat} {candidates : List (Nat × Nat)}

theorem derivePass_of_no_gun (h : waves[w].gun = none) :
    derivePass waves (some w) course distance x candidates = { Derived.absent with noGun := true } := by
  simp only [derivePass, h]

theorem derivePass_of_before_gun (h : waves[w].gun = some gun) (before : x < gun) :
    derivePass waves (some w) course distance x candidates = { Derived.absent with beforeGun := true } := by
  simp only [derivePass, h, if_pos before]

theorem derivePass_of_gun (h : waves[w].gun = some gun) (started : gun ≤ x) :
    derivePass waves (some w) course distance x candidates =
      deriveSpan course distance (x - gun) candidates := by
  simp only [derivePass, h, if_neg (Nat.not_lt.mpr started)]

end

/-- Settles O38: the values derived from a pass, by its gun and by the candidate taken. -/
theorem derivationFollowsTheFormulas : Obligations.DerivationFollowsTheFormulas := by
  intro waves course d x candidates
  refine ⟨rfl, fun w => ⟨derivePass_of_no_gun, fun gun has_gun =>
    ⟨derivePass_of_before_gun has_gun, fun started => ?_⟩⟩⟩
  intro T timed
  rw [derivePass_of_gun has_gun started]
  refine ⟨deriveSpan_of_no_candidate, ?_⟩
  rintro pos before after du tu rfl near early lt le S M P F
  exact deriveSpan_of_farthest pos (farthest_filter_candidateKept ⟨near, early⟩ lt le)

/-! ### Displayed values (R95 to R97) -/

theorem digit_mod_ten (n : Nat) : digit (n % 10) = digit n := by
  rw [digit, digit, Nat.mod_mod]

theorem twoDigits_eq (n : Nat) : twoDigits n = [digit (n / 10), digit (n % 10)] := by
  rw [twoDigits, digit_mod_ten]

theorem hms_eq (seconds : Nat) :
    let s := min seconds 35999
    hms seconds =
      [digit (s / 3600), 0x3A#8, digit (s / 60 % 60 / 10), digit (s / 60 % 60 % 10), 0x3A#8,
        digit (s % 60 / 10), digit (s % 60 % 10)] := by
  intro s
  rw [hms, twoDigits_eq, twoDigits_eq]
  rfl

/-- Minutes and seconds in 5 cells, a space for the tens of minutes while there are none (R96). -/
theorem paceText_eq (p : Nat) :
    let s := min ((p + 50) / 100) 3599
    paceText (some p) =
      [if s < 600 then 0x20#8 else digit (s / 60 / 10), digit (s / 60 % 10), 0x3A#8, digit (s % 60 / 10),
        digit (s % 60 % 10)] := by
  intro s
  rw [paceText, twoDigits_eq, digit_mod_ten (s / 60)]
  by_cases short : s < 600
  · rw [if_pos short, if_pos short]
    rfl
  · rw [if_neg short, if_neg short]
    rfl

theorem bandClockText_of_before_gun {clock gun : Nat} (before : clock < gun) :
    bandClockText clock (some gun) = absentTime := if_pos before

theorem bandClockText_of_gun {clock gun : Nat} (started : gun ≤ clock) :
    bandClockText clock (some gun) = hms ((clock - gun) / 100) := if_neg (Nat.not_lt.mpr started)

/-- Settles O40: the texts of race time, projection, pace and band clock. -/
theorem displayedTimes : Obligations.DisplayedTimes := by
  refine ⟨fun _ => rfl, ⟨rfl, rfl, fun _ => rfl⟩, fun t => hms_eq _, paceText_eq, fun clock gun =>
    ⟨bandClockText_of_before_gun, fun started => ?_⟩⟩
  rw [bandClockText_of_gun started]
  exact hms_eq _

end Sys2Proof.Machine
end

section
/-! The split log: where a number stands in a sound log (R105 to R107), what a command can do to the log, said once
as a relation with the inversion of `exec` into it, and from both the invariant and the two requests of chapter 6. -/

namespace Sys2Proof.Machine

/-! ### A sound log (R105 to R107) -/

/-- The log holds at most 2,048 entries, numbered consecutively up to the next number, and no DUPLICATE (R105,
R106). -/
def SplitLog.Sound (l : SplitLog) : Prop :=
  l.entries.length ≤ 2048 ∧
    ∀ (k : Nat) (e : LogEntry), l.entries[k]? = some e →
      e.number + BitVec.ofNat 16 (l.entries.length - k) = l.next ∧ e.cls ≠ .duplicate

theorem logSound_iff (s : State) : LogSound s ↔ s.sl.Sound := Iff.rfl

section
variable {l : SplitLog}

/-- The number of the oldest entry is the count of entries behind the next number (R112). -/
theorem SplitLog.Sound.oldest_eq (h : l.Sound) : l.oldest = l.next - BitVec.ofNat 16 l.entries.length := by
  obtain ⟨-, numbers⟩ := h
  unfold SplitLog.oldest
  split
  · rename_i e rest entries
    obtain ⟨number, -⟩ := numbers 0 e (by rw [entries]; rfl)
    exact BitVec.eq_sub_iff_add_eq.mpr number
  · rename_i entries
    rw [entries]
    exact (BitVec.sub_zero _).symm

theorem SplitLog.Sound.oldest_toNat (h : l.Sound) :
    l.oldest.toNat = (l.next.toNat + 65536 - l.entries.length) % 65536 := by
  obtain ⟨length, -⟩ := id h
  rw [h.oldest_eq, BitVec.toNat_sub, BitVec.toNat_ofNat]
  omega

/-- The entry at a place has that place as the place of its number (R107). -/
theorem SplitLog.Sound.placeOf_number (h : l.Sound) {k : Nat} {e : LogEntry} (at_ : l.entries[k]? = some e) :
    l.placeOf e.number = k := by
  obtain ⟨length, numbers⟩ := id h
  obtain ⟨number, -⟩ := numbers k e at_
  obtain ⟨within, -⟩ := List.getElem?_eq_some_iff.mp at_
  rw [SplitLog.placeOf, h.oldest_eq, ← number]
  have back : e.number - (e.number + BitVec.ofNat 16 (l.entries.length - k) - BitVec.ofNat 16 l.entries.length) =
      BitVec.ofNat 16 k := by
    apply BitVec.eq_of_toNat_eq
    simp only [BitVec.toNat_sub, BitVec.toNat_add, BitVec.toNat_ofNat]
    omega
  rw [back, BitVec.toNat_ofNat]
  omega

/-- The place of a number tells it (R107). -/
theorem SplitLog.placeOf_injective {m n : Half} (h : l.placeOf m = l.placeOf n) : m = n := by
  simpa using congrArg (· + l.oldest) (BitVec.eq_of_toNat_eq h)

/-- A number is held exactly when an entry bears it (R107). -/
theorem SplitLog.Sound.holds_iff (h : l.Sound) (n : Half) :
    l.holds n = true ↔ ∃ e ∈ l.entries, e.number = n := by
  rw [SplitLog.holds, decide_eq_true_iff]
  constructor
  · intro within
    refine ⟨l.entries[l.placeOf n], List.getElem_mem within, SplitLog.placeOf_injective (l := l) ?_⟩
    exact h.placeOf_number (List.getElem?_eq_getElem within)
  · rintro ⟨e, mem, rfl⟩
    obtain ⟨k, within, rfl⟩ := List.mem_iff_getElem.mp mem
    rwa [h.placeOf_number (List.getElem?_eq_getElem within)]

/-! ### What keeps a log sound (R106, R108, R113, R118) -/

theorem emptyLog_sound : SplitLog.empty.Sound := ⟨Nat.zero_le _, fun _ _ at_ => nomatch at_⟩

/-- An entry of the next number joins the log, or a full log counts the refusal (R108, R109). -/
theorem SplitLog.Sound.append (h : l.Sound) (bib : Nat) (reader : Reader) (timed : Bool) (tick : Nat) {cls : Class}
    (wave : Option Wave) (logged : cls ≠ .duplicate) : (l.append bib reader timed tick cls wave).Sound := by
  obtain ⟨length, numbers⟩ := id h
  unfold SplitLog.append
  split
  · rename_i room
    refine ⟨by simpa using room, fun k e at_ => ?_⟩
    simp only [List.length_append, List.length_singleton] at *
    rcases Nat.lt_or_ge k l.entries.length with old | new
    · rw [List.getElem?_append_left old] at at_
      obtain ⟨number, cls⟩ := numbers k e at_
      refine ⟨?_, cls⟩
      rw [Nat.sub_add_comm old.le, ← number, BitVec.add_assoc]
      exact congrArg _ (BitVec.ofNat_add ..)
    · rw [List.getElem?_append_right new, List.getElem?_singleton] at at_
      obtain ⟨last, newest⟩ := Option.ite_none_right_eq_some.mp at_
      obtain rfl := Option.some.inj newest
      obtain rfl : k = l.entries.length := by omega
      rw [Nat.add_sub_cancel_left]
      exact ⟨rfl, logged⟩
  · exact h

/-- What is left of a sound log after its oldest entries go is sound (R113). -/
theorem SplitLog.Sound.drop (h : l.Sound) (n : Nat) : SplitLog.Sound { l with entries := l.entries.drop n } := by
  obtain ⟨length, numbers⟩ := h
  refine ⟨by rw [List.length_drop]; omega, fun k e at_ => ?_⟩
  rw [List.getElem?_drop] at at_
  rw [List.length_drop, Nat.sub_sub]
  exact numbers (n + k) e at_

end

/-! ### The moves of the log -/

/-- Everything a command can make of the log. -/
inductive LogMove (l : SplitLog) : SplitLog → Prop
  /-- The log does not move. -/
  | stays : LogMove l l
  /-- A crossing that is no DUPLICATE is appended, or refused by a full log (R54, R108, R109). -/
  | appended (bib : Nat) (reader : Reader) (timed : Bool) (tick : Nat) {cls : Class} (wave : Option Wave)
    (logged : cls ≠ .duplicate) : LogMove l (l.append bib reader timed tick cls wave)
  /-- The entries through a held number are released (R113). -/
  | released {n : Half} (held : l.holds n = true) :
    LogMove l { l with entries := l.entries.drop (l.placeOf n + 1) }
  /-- The log is cleared, by a reset or a Race Clear (R118). -/
  | cleared : LogMove l SplitLog.empty

/-- Every move of the log keeps it sound. -/
theorem logMove_sound {l m : SplitLog} (move : LogMove l m) (h : l.Sound) : m.Sound := by
  cases move with
  | stays => exact h
  | appended bib reader timed tick wave logged => exact h.append bib reader timed tick wave logged
  | released held => exact h.drop _
  | cleared => exact emptyLog_sound

/-- `t` follows from `s` by a move of the log. -/
def MovesLog (s t : State) : Prop := LogMove s.sl t.sl

theorem movesLog_of_sl {s t : State} (h : t.sl = s.sl) : MovesLog s t := by
  unfold MovesLog
  rw [h]
  exact .stays

/-- What a packet makes of the log is what its owner block makes of it. -/
theorem receive_movesLog {k : Kind} {p : Packet} {owner : Channel → State → Answer} {s t : State}
    (h : receive k p owner s = .next t) (ho : ∀ c, (owner c s).All (MovesLog s)) : MovesLog s t :=
  receive_all h .stays (fun _ _ move => move) ho

/-- An owner block that leaves the log alone. -/
theorem receive_keepsLog {k : Kind} {p : Packet} {owner : Channel → State → Answer} {s t : State}
    (h : receive k p owner s = .next t) (ho : ∀ c, (owner c s).All fun u => u.sl = s.sl) : MovesLog s t :=
  receive_movesLog h fun c => (ho c).imp fun _ => movesLog_of_sl

/-- An event that leaves the log alone; no event moves it. -/
theorem event_keepsLog {s t : State} {f : State → State} (h : event s f = .next t) (hf : (f s).sl = s.sl) :
    MovesLog s t := by
  rcases event_cases h with ⟨-, rfl⟩ | ⟨-, rfl⟩
  · exact .stays
  · exact movesLog_of_sl hf

/-! ### Operations of the other blocks leave the log -/

theorem OnlyLink.sl {s t : State} (h : OnlyLink s t) : t.sl = s.sl := by
  rw [h]
  rfl

theorem OnlyList.sl {s t : State} (h : OnlyList s t) : t.sl = s.sl := by
  rw [h]
  rfl

theorem OnlyBand.sl {s t : State} (h : OnlyBand s t) : t.sl = s.sl := by
  rw [h]
  rfl

@[simp] theorem renderIdleClock_sl (s : State) : (renderIdleClock s).sl = s.sl :=
  (renderIdleClock_onlyImage s).onlyList.sl

@[simp] theorem clockValueChanged_sl (s : State) : (clockValueChanged s).sl = s.sl :=
  (clockValueChanged_onlyList s).sl

@[simp] theorem headTest_sl (s : State) : (headTest s).sl = s.sl := (headTest_onlyList s).sl

@[simp] theorem emptyBuffer_sl (j : Nat) (s : State) : (emptyBuffer j s).sl = s.sl := rfl

@[simp] theorem rerender_sl (i : Slot) (s : State) : (rerender i s).sl = s.sl :=
  (rerender_onlyCells i s).onlyList.sl

@[simp] theorem selectOrTest_sl (s : State) : (selectOrTest s).sl = s.sl := (selectOrTest_onlyBand s).sl

@[simp] theorem maskLevels_sl (old new : BitVec 8) (s : State) : (maskLevels old new s).sl = s.sl :=
  (maskLevels_onlyBand old new s).sl

@[simp] theorem endAndSelect_sl (deleted : Bool) (s : State) : (endAndSelect deleted s).sl = s.sl :=
  (endAndSelect_onlyBand deleted s).sl

@[simp] theorem removeSuspended_sl (deleted : Bool) (gone : Feature → Bool) (s : State) :
    (removeSuspended deleted gone s).sl = s.sl := (removeSuspended_onlyBand deleted gone s).sl

@[simp] theorem postChecked_sl (m : Fin 8) (k : Level) (duration : Nat) (lines : List (List Byte)) (s : State) :
    (postChecked m k duration lines s).sl = s.sl := (postChecked_onlyBand m k duration lines s).sl

@[simp] theorem deleteStored_sl (m : Fin 8) (s : State) : (deleteStored m s).sl = s.sl :=
  (deleteStored_onlyBand m s).sl

@[simp] theorem storeWave_sl (w : Wave) (entry : WaveEntry) (s : State) : (storeWave w entry s).sl = s.sl :=
  (storeWave_onlyImage w entry s).onlyList.sl

@[simp] theorem layoutBand_sl (oldB : Nat) (oldWave : Wave) (s : State) : (layoutBand oldB oldWave s).sl = s.sl :=
  (layoutBand_onlyBand oldB oldWave s).sl

@[simp] theorem layoutList_sl (s : State) : (layoutList s).sl = s.sl := headTest_sl _

@[simp] theorem layoutChecked_sl (n b : Nat) (w : Wave) (s : State) : (layoutChecked n b w s).sl = s.sl := by
  rw [layoutChecked_eq, State.withBi_sl, bandLaidOut, layoutBand_sl, listLaidOut]
  split
  · exact layoutList_sl _
  · rfl

@[simp] theorem listTiming_sl (minDwell lineExpiry leadDelay ageLimit : Nat) (s : State) :
    (listTiming minDwell lineExpiry leadDelay ageLimit s).sl = s.sl :=
  ((expireLines_onlyList _ _).trans (headTest_onlyList _)).sl

@[simp] theorem visitSlot_sl (i : Slot) (s : State) : (visitSlot i s).sl = s.sl := by
  rcases visitSlot_cases i s s.sa with ⟨-, same⟩ | ⟨r, -, -, visit⟩
  · rw [same]
  · rw [visit, rerender_sl, State.withRt_sl]

@[simp] theorem fillSlot_sl (i : Slot) (bib : Nat) (f : FillFields) (s : State) : (fillSlot i bib f s).sl = s.sl := by
  unfold fillSlot
  split
  · rw [rerender_sl, State.withRt_sl]
  · rfl

@[simp] theorem correctSlot_sl (i : Slot) (pass : PassNo) (tick : Option Nat) (s : State) :
    (correctSlot i pass tick s).sl = s.sl := by
  rcases correctSlot_cases i pass tick s s.sa with same | ⟨u, -, corrected⟩
  · rw [same]
  · rw [corrected, rerender_sl, State.withRt_sl]

@[simp] theorem markPulse_sl (r : Reader) (s : State) : (markPulse r s).sl = s.sl := by
  unfold markPulse captureMark
  dsimp only
  repeat' split
  all_goals rfl

@[simp] theorem putHold_sl (c : Channel) (s : State) : (putHold c s).sl = s.sl := by
  unfold putHold
  split <;> rfl

/-! ### Owner blocks that leave the log alone -/

theorem clockSet_keepsLog (tick : Nat) (s : State) : (clockSet tick s).All fun u => u.sl = s.sl := by
  unfold clockSet
  repeat' split
  · rfl
  · rfl
  · exact clockValueChanged_sl _

theorem clockStop_sl (s : State) : (clockStop s).sl = s.sl := by
  unfold clockStop
  split
  · rfl
  all_goals exact renderIdleClock_sl _

theorem clockTrim_keepsLog (amount : Int) (s : State) : (clockTrim amount s).All fun u => u.sl = s.sl := by
  unfold clockTrim
  split
  · dsimp only
    split
    · rfl
    · exact clockValueChanged_sl _
  all_goals rfl

theorem waveSet_keepsLog (wave rangeCode first last gunCode tick : Nat) (s : State) :
    (waveSet wave rangeCode first last gunCode tick s).All fun u => u.sl = s.sl := by
  unfold waveSet
  repeat' split
  all_goals simp

theorem gunClear_keepsLog (wave : Nat) (s : State) : (gunClear wave s).All fun u => u.sl = s.sl := by
  unfold gunClear
  split <;> simp

theorem pointSetup_keepsLog (l d1 d2 g w : Nat) (s : State) :
    (pointSetup l d1 d2 g w s).All fun u => u.sl = s.sl := by
  unfold pointSetup
  repeat' split
  all_goals rfl

theorem rosterFill_keepsLog (bib : Nat) (flag : Bool) (n wave distance time : Nat) (name : List Byte) (s : State) :
    (rosterFill bib flag n wave distance time name s).All fun u => u.sl = s.sl := by
  unfold rosterFill preload staleFill
  repeat' split
  all_goals simp

theorem pinBib_keepsLog (bib level : Nat) (s : State) : (pinBib bib level s).All fun u => u.sl = s.sl := by
  unfold pinBib pinAbsent
  repeat' split
  all_goals simp

theorem readSlot_keepsLog (c : Channel) (i : Slot) (s : State) : (readSlot c i s).All fun u => u.sl = s.sl := by
  unfold readSlot
  split <;> rfl

theorem correctPass_keepsLog (bib code : Nat) (tick : Option Nat) (s : State) :
    (correctPass bib code tick s).All fun u => u.sl = s.sl := by
  unfold correctPass
  repeat' split
  · rfl
  · rfl
  · exact withBib_all rfl fun i => correctSlot_sl i _ _ s
  · rfl

theorem postMessage_keepsLog (message level duration lineCount : Nat) (text : List Byte) (s : State) :
    (postMessage message level duration lineCount text s).All fun u => u.sl = s.sl := by
  unfold postMessage
  repeat' split
  all_goals simp

theorem deleteMessage_keepsLog (message : Nat) (s : State) :
    (deleteMessage message s).All fun u => u.sl = s.sl := by
  unfold deleteMessage
  split <;> simp

theorem endFeature_keepsLog (code : Nat) (s : State) : (endFeature code s).All fun u => u.sl = s.sl := by
  unfold endFeature endLevel
  repeat' split
  all_goals simp

theorem featureSetup_keepsLog (modeCode : Nat) (mask : BitVec 8) (leaderCode dwell : Nat) (s : State) :
    (featureSetup modeCode mask leaderCode dwell s).All fun u => u.sl = s.sl := by
  unfold featureSetup
  dsimp only
  repeat' split
  all_goals simp

theorem boardLayout_keepsLog (n b wave : Nat) (s : State) :
    (boardLayout n b wave s).All fun u => u.sl = s.sl := by
  unfold boardLayout
  repeat' split
  all_goals simp

theorem displayMode_keepsLog (code : Nat) (s : State) : (displayMode code s).All fun u => u.sl = s.sl := by
  unfold displayMode
  split <;> rfl

theorem dutyTable_keepsLog (entries : Vector Byte 16) (s : State) :
    (dutyTable entries s).All fun u => u.sl = s.sl := by
  unfold dutyTable
  split <;> rfl

theorem panelWindow_keepsLog (number : Nat) (w : Option Window) (s : State) :
    (panelWindow number w s).All fun u => u.sl = s.sl := by
  unfold panelWindow
  repeat' split
  all_goals rfl

theorem readLines_keepsLog (first count : Nat) (c : Channel) (s : State) :
    (readLines first count c s).All fun u => u.sl = s.sl := by
  unfold readLines
  split <;> rfl

theorem arbitrationSetup_keepsLog (modeCode parkCode : Nat) (s : State) :
    (arbitrationSetup modeCode parkCode s).All fun u => u.sl = s.sl := by
  unfold arbitrationSetup
  split <;> rfl

/-! ### Owner blocks that move the log -/

/-- A crossing of a slot logs its class, unless it is a DUPLICATE (R54, R55). -/
theorem crossSlot_movesLog (i : Slot) (reader : Reader) (timed : Bool) (x : Nat) (s : State) :
    MovesLog s (crossSlot i reader timed x s) := by
  cases occupied : s.rt.slots[i] with
  | none => exact movesLog_of_sl (by simp only [crossSlot, occupied])
  | some r =>
    unfold MovesLog
    rw [crossSlot_sl reader timed x occupied, recordedAndLogged, logCrossing_sl]
    split
    · exact .stays
    · rename_i logged
      exact .appended _ _ _ _ _ logged

/-- The crossing of any bib logs at most one entry (R45). -/
theorem crossing_movesLog (reader : Reader) (timed : Bool) (bib x : Nat) (s : State) :
    (crossing reader timed bib x s).All (MovesLog s) := by
  unfold crossing
  split
  · rename_i bibs
    split
    · rename_i i t slot
      obtain ⟨table, -⟩ := crossingSlot_steps bibs slot
      have same : t.sl = s.sl := by rw [table, State.withRt_sl]
      have moved := crossSlot_movesLog i reader timed x t
      rwa [MovesLog, same] at moved
    · trivial
  · exact .stays

theorem crossingReport_movesLog (c : Channel) (bib number : Nat) (s : State) :
    (match readerOf c with
      | some r => crossingReport r bib number s
      | none => Answer.refused .notPermitted s).All (MovesLog s) := by
  split
  · unfold crossingReport
    split
    · exact .stays
    · exact crossing_movesLog _ _ _ _ _
  · exact .stays

theorem timedCrossingReport_movesLog (c : Channel) (bib x : Nat) (s : State) :
    (match readerOf c with
      | some r => timedCrossingReport r bib x s
      | none => Answer.refused .notPermitted s).All (MovesLog s) := by
  split
  · unfold timedCrossingReport
    split
    · exact .stays
    · split
      · exact .stays
      · exact crossing_movesLog _ _ _ _ _
  · exact .stays

theorem releaseEntries_of_held {n : Half} {s : State} (held : s.sl.holds n = true) :
    releaseEntries n s =
      .done (s.withSl { s.sl with entries := s.sl.entries.drop (s.sl.placeOf n + 1) }) := if_pos held

theorem releaseEntries_of_not_held {n : Half} {s : State} (gone : ¬ s.sl.holds n = true) :
    releaseEntries n s = .refused .badValue s := if_neg gone

theorem releaseEntries_movesLog (n : Half) (s : State) : (releaseEntries n s).All (MovesLog s) := by
  by_cases held : s.sl.holds n = true
  · rw [releaseEntries_of_held held]
    exact .released held
  · rw [releaseEntries_of_not_held held]
    exact .stays

/-! ### Every command -/

/-- Every command moves the log by one of the moves above. -/
theorem exec_movesLog {i : Instr} {s t : State} (h : exec i s = .next t) : MovesLog s t := by
  unfold exec at h
  cases i with
  | powerOn | resetAsserted =>
    cases h
    exact .cleared
  | openPattern => exact movesLog_of_sl (execOpenPattern_onlyLink h).sl
  | normalClose tail => exact movesLog_of_sl (execNormalClose_onlyLink h).sl
  | turnClose tail => exact movesLog_of_sl (execTurnClose_onlyLink h).sl
  | replyBurstEnd => exact movesLog_of_sl (execReplyBurstEnd_onlyLink h).sl
  | cut tail => exact movesLog_of_sl (execCut_onlyLink h).sl
  | headerBad header => exact movesLog_of_sl (execHeaderBad_onlyLink h).sl
  | unknownKind kind p => exact movesLog_of_sl (execUnknownKind_onlyLink h).sl
  | requestRaised c => exact movesLog_of_sl (execRequestRaised_onlyLink h).sl
  | requestDropped c => exact movesLog_of_sl (execRequestDropped_onlyLink h).sl
  | busyRelease => exact movesLog_of_sl (execBusyRelease_onlyLink h).sl
  | offerTimerExpiry => exact movesLog_of_sl (execOfferTimerExpiry_onlyLink h).sl
  | tenureReached => exact movesLog_of_sl (execTenureReached_onlyLink h).sl
  | withdrawalGraceEnd => exact movesLog_of_sl (execWithdrawalGraceEnd_onlyLink h).sl
  | holdLimit => exact movesLog_of_sl (execHoldLimit_onlyLink h).sl
  | crossingReport p => exact receive_movesLog h fun c => crossingReport_movesLog c _ _ s
  | timedCrossingReport p => exact receive_movesLog h fun c => timedCrossingReport_movesLog c _ _ s
  | release p => exact receive_movesLog h fun _ => releaseEntries_movesLog _ s
  | raceClear p => exact receive_movesLog h fun _ => .cleared
  | clockSet p => exact receive_keepsLog h fun _ => clockSet_keepsLog _ s
  | clockStop p => exact receive_keepsLog h fun _ => clockStop_sl s
  | clockTrim p => exact receive_keepsLog h fun _ => clockTrim_keepsLog _ s
  | waveSet p => exact receive_keepsLog h fun _ => waveSet_keepsLog _ _ _ _ _ _ s
  | gunClear p => exact receive_keepsLog h fun _ => gunClear_keepsLog _ s
  | pointSetup p => exact receive_keepsLog h fun _ => pointSetup_keepsLog _ _ _ _ _ s
  | rosterFill p => exact receive_keepsLog h fun _ => rosterFill_keepsLog _ _ _ _ _ _ _ s
  | pin p => exact receive_keepsLog h fun _ => pinBib_keepsLog _ _ s
  | unpin p => exact receive_keepsLog h fun _ => withBib_all rfl fun _ => rfl
  | readRecord p => exact receive_keepsLog h fun c => withBib_all rfl fun i => readSlot_keepsLog c i s
  | correctPass p => exact receive_keepsLog h fun _ => correctPass_keepsLog _ _ _ s
  | postMessage p => exact receive_keepsLog h fun _ => postMessage_keepsLog _ _ _ _ _ s
  | deleteMessage p => exact receive_keepsLog h fun _ => deleteMessage_keepsLog _ s
  | endFeature p => exact receive_keepsLog h fun _ => endFeature_keepsLog _ s
  | featureSetup p => exact receive_keepsLog h fun _ => featureSetup_keepsLog _ _ _ _ s
  | listTiming p => exact receive_keepsLog h fun _ => listTiming_sl _ _ _ _ s
  | boardLayout p => exact receive_keepsLog h fun _ => boardLayout_keepsLog _ _ _ s
  | displayMode p => exact receive_keepsLog h fun _ => displayMode_keepsLog _ s
  | dutyTable p => exact receive_keepsLog h fun _ => dutyTable_keepsLog _ s
  | panelWindow p => exact receive_keepsLog h fun _ => panelWindow_keepsLog _ _ s
  | readLines p => exact receive_keepsLog h fun c => readLines_keepsLog _ _ c s
  | arbitrationSetup p => exact receive_keepsLog h fun _ => arbitrationSetup_keepsLog _ _ s
  | hold p => exact receive_keepsLog h fun c => putHold_sl c s
  | tableFlush p => exact receive_keepsLog h fun _ => State.withRt_sl s _
  | fetchFills | collect | brightness | scanPeriod | status | attentionMask | channelReset
  | releaseHold => exact receive_keepsLog h fun _ => rfl
  | fillTimeout => exact event_keepsLog h rfl
  | markPulse r => exact event_keepsLog h (markPulse_sl r s)
  | passVisit | dwellExpiry | minDwellReached | scanStart | frameSent =>
    refine event_keepsLog h ?_
    split <;> simp
  | clockAdvance =>
    refine event_keepsLog h ?_
    split
    · split
      · exact clockValueChanged_sl _
      · rfl
    all_goals rfl
  | markExpiry r n =>
    refine event_keepsLog h ?_
    dsimp only
    split <;> rfl
  | lineExpiry j =>
    refine event_keepsLog h ?_
    dsimp only
    repeat' split
    all_goals simp

theorem exec_logSound {i : Instr} {s t : State} (h : exec i s = .next t) (hs : LogSound s) : LogSound t :=
  logMove_sound (exec_movesLog h) hs

theorem passMillisecond_sl (s : State) : (passMillisecond s).sl = s.sl := by
  unfold passMillisecond
  split <;> rfl

/-- Settles O42: every command moves the log by an append of the next number, a release from the oldest on, or a
clear, and each keeps it sound; the queue and the time have no part in it. -/
theorem everyStepKeepsLogSound : Obligations.EveryStepKeepsLogSound := fun _ _ hs step =>
  step_keeps (fun _ _ h => h) (fun _ _ _ => exec_logSound)
    (fun s h => (logSound_iff _).mpr (passMillisecond_sl s ▸ h)) step hs

/-! ### Collect and Release (R107, R111 to R113) -/

/-- The place of a number, from the number of the oldest entry (R107). -/
theorem placeOf_ofNat (l : SplitLog) (n : Nat) :
    l.placeOf (BitVec.ofNat 16 n) = (n + 65536 - l.oldest.toNat) % 65536 := by
  have below := l.oldest.isLt
  rw [SplitLog.placeOf, BitVec.toNat_sub, BitVec.toNat_ofNat]
  omega

theorem collect_ofNat (l : SplitLog) (n m : Nat) :
    let place := (n + 65536 - l.oldest.toNat) % 65536
    l.collect (BitVec.ofNat 16 n) m = if place < l.entries.length then (l.entries.drop place).take m else [] := by
  intro place
  have held : l.holds (BitVec.ofNat 16 n) = decide (place < l.entries.length) := by
    rw [SplitLog.holds, placeOf_ofNat]
  rw [SplitLog.collect, held, placeOf_ofNat]
  simp only [decide_eq_true_iff]
  rfl

theorem collectResult : Claims.CollectResult := by
  intro c p s hd sound n m oldest place
  have oldestEq : oldest = s.sl.oldest.toNat := ((logSound_iff s).mp sound).oldest_toNat.symm
  have ran : execCollect p s =
      .next (collectEntries c (BitVec.ofNat 16 n) (byteAt (payloadOf p) 2) s) := receive_of_done hd rfl
  refine ran.trans (congrArg Host.Outcome.next ?_)
  have placeEq : place = (n + 65536 - s.sl.oldest.toNat) % 65536 := by rw [← oldestEq]
  rw [placeEq, ← collect_ofNat, oldestEq, BitVec.ofNat_toNat, BitVec.setWidth_eq]
  rfl

theorem releaseResult : Claims.ReleaseResult := by
  intro c p s hd
  refine ⟨fun absent sound => receive_of_refused hd (releaseEntries_of_not_held fun held => ?_), ?_⟩
  · obtain ⟨e, mem, number⟩ := (((logSound_iff s).mp sound).holds_iff _).mp held
    exact absent e mem number
  · intro before rest e sound entries number
    have log := (logSound_iff s).mp sound
    have held : s.sl.holds (bodyParam p.body) = true := (log.holds_iff _).mpr ⟨e, by simp [entries], number⟩
    have place : s.sl.placeOf (bodyParam p.body) = before.length :=
      number ▸ log.placeOf_number (by simp [entries])
    have left : s.sl.entries.drop (before.length + 1) = rest := by rw [entries, List.drop_length_add_append]; rfl
    refine receive_of_done hd ?_
    rw [releaseEntries_of_held held, place, left]

/-- Settles O41: a sound log's numbers tell their places, so that the entries held are those of the places below
the count. -/
theorem collectAndRelease : Obligations.CollectAndRelease := ⟨collectResult, releaseResult⟩

end Sys2Proof.Machine
end

section
/-! The six attention conditions, the ATTN line and Attention Mask (R116, R168, R169). -/

namespace Sys2Proof.Machine

/-! ### The conditions present (R168) -/

/-- Bits written from the last to the first stand at their places. -/
theorem getLsbD_ofBits : ∀ b0 b1 b2 b3 b4 b5 : Bool,
    let x : BitVec 6 := BitVec.ofBool b5 ++ BitVec.ofBool b4 ++ BitVec.ofBool b3 ++ BitVec.ofBool b2 ++
      BitVec.ofBool b1 ++ BitVec.ofBool b0
    x.getLsbD 0 = b0 ∧ x.getLsbD 1 = b1 ∧ x.getLsbD 2 = b2 ∧ x.getLsbD 3 = b3 ∧ x.getLsbD 4 = b4 ∧
      x.getLsbD 5 = b5 := by
  decide

/-- Which condition each bit of the conditions present stands for, in the order of 11.4. -/
theorem present_bits (s : State) (c : Channel) :
    (present s c).getLsbD 0 = reportWaiting s c ∧ (present s c).getLsbD 1 = replyWaiting s c ∧
      (present s c).getLsbD 2 = clockNotRunning s ∧ (present s c).getLsbD 3 = markTrouble s c ∧
      (present s c).getLsbD 4 = fillsWaiting s c ∧ (present s c).getLsbD 5 = logHigh s c :=
  getLsbD_ofBits _ _ _ _ _ _

theorem reportWaiting_iff (s : State) (c : Channel) :
    reportWaiting s c = true ↔ s.lc.errors[c] ≠ ErrorRecord.empty := by
  obtain ⟨-, -, empty⟩ := linkErrorFlags
  rw [reportWaiting, Bool.not_eq_true', ← Bool.not_eq_true, empty]

theorem replyWaiting_iff (s : State) (c : Channel) : replyWaiting s c = true ↔ s.lc.replies[c] ≠ [] := by
  simp [replyWaiting]

theorem clockNotRunning_iff (s : State) :
    clockNotRunning s = true ↔ ∀ start, s.cmu.clock.state ≠ .running start := by
  rw [clockNotRunning, Bool.not_eq_true', ← Bool.not_eq_true, isRunning_iff, not_exists]

/-- The readers' channels alone have counts, each its own reader's (R32, R45). -/
theorem markTrouble_iff (s : State) (c : Channel) :
    markTrouble s c = true ↔
      (c = 0 ∧ (0 < s.att.countsA.lost ∨ 0 < s.att.countsA.orphan)) ∨
        (c = 1 ∧ (0 < s.att.countsB.lost ∨ 0 < s.att.countsB.orphan)) := by
  fin_cases c <;> simp [markTrouble, readerOf, AttentionState.counts, Nat.pos_iff_ne_zero]

/-- Channel 2 by its number. -/
theorem channelTwo_iff (c : Channel) : c.val = 2 ↔ c = 2 := by
  rw [Fin.ext_iff]
  rfl

theorem fillsWaiting_iff (s : State) (c : Channel) :
    fillsWaiting s c = true ↔ c = 2 ∧ ∃ e ∈ s.rt.fills, e.sent = false := by
  simp [fillsWaiting, RunnerTable.waiting, List.length_pos_iff_exists_mem, channelTwo_iff]

theorem logHigh_iff (s : State) (c : Channel) :
    logHigh s c = true ↔ c = 2 ∧ s.att.logThreshold ≤ s.sl.entries.length := by
  simp [logHigh, channelTwo_iff]

/-! ### The ATTN line (R168, R171) -/

/-- Two sets of bits meet exactly when a bit is in both. -/
theorem and_ne_zero_iff {w : Nat} (x y : BitVec w) :
    x &&& y ≠ 0#w ↔ ∃ i < w, x.getLsbD i = true ∧ y.getLsbD i = true := by
  rw [ne_eq, BitVec.eq_of_getLsbD_eq_iff]
  simp

theorem attn_iff (s : State) (c : Channel) :
    s.attn c = true ↔
      s.resetHeld = false ∧ ∃ i < 6, (present s c).getLsbD i = true ∧ s.att.masks[c].getLsbD i = true := by
  rw [← and_ne_zero_iff]
  simp [State.attn]

theorem attentionConditions : Claims.AttentionConditions := by
  intro s c
  obtain ⟨report, reply, clock, marks, fills, log⟩ := present_bits s c
  rw [report, reply, clock, marks, fills, log]
  exact ⟨reportWaiting_iff s c, replyWaiting_iff s c, clockNotRunning_iff s, markTrouble_iff s c,
    fillsWaiting_iff s c, logHigh_iff s c, attn_iff s c⟩

/-! ### Attention Mask (R116, R169) -/

theorem attentionMaskResult : Claims.AttentionMaskResult := by
  intro c p s hd
  have ran : execAttentionMask p s =
      .next (attentionMask c (byteAt (payloadOf p) 0) (halfAt (payloadOf p) 1) s) := receive_of_done hd rfl
  exact ran

/-- Settles O57: each bit is its condition, the line is raised by a bit that is in the mask too, and Attention Mask
stores the mask and the clamped threshold. -/
theorem attentionFollowsTheMask : Obligations.AttentionFollowsTheMask := ⟨attentionConditions, attentionMaskResult⟩

end Sys2Proof.Machine
end

section
/-! A feature controller stripped to what features, message states and candidates rest on: whatever its queues and its
messages' lines are, selections, preemptions and endings act on what is left as on the whole (R125 to R130). -/

namespace Sys2Proof.Machine

/-! ### Endings, as the feature controller and the table see them (R130) -/

/-- In ROTATING mode a level from 1 moves to the end of the rotation order (R126). -/
theorem rotate_eq_ite (f : FeatureState) (k : Level) :
    f.rotate k =
      { f with
        rotation := if f.mode = .rotating ∧ k ≠ 0 then f.rotation.erase k ++ [k] else f.rotation } := by
  unfold FeatureState.rotate
  split <;> rename_i mode
  · rw [if_neg (by simp [mode])]
  · split <;> rename_i zero
    · rw [if_neg fun both => both.2 zero]
    · rw [if_pos ⟨mode, zero⟩]

/-- What the ending of a feature makes of the feature controller: its message settled, its level rotated. -/
def FeatureState.finish (deleted : Bool) (f : FeatureState) (g : Feature) : FeatureState :=
  match g.ref with
  | .runner _ => f.rotate g.level
  | .message m =>
    { f with messages := f.messages.set m (f.messages[m].bind (endedMessage deleted)) }.rotate g.level

/-- What the ending of a feature makes of the table: its hold released. -/
def RunnerTable.finish (t : RunnerTable) (g : Feature) : RunnerTable :=
  match g.ref with
  | .runner e => t.release e.slot
  | .message _ => t

theorem finishFeature_eq (deleted : Bool) (g : Feature) (s : State) :
    finishFeature deleted g s = (s.withRt (s.rt.finish g)).withFc (s.fc.finish deleted g) := by
  unfold finishFeature FeatureState.finish RunnerTable.finish
  cases g.ref with
  | runner e => rfl
  | message m =>
    dsimp only
    cases stored : s.fc.messages[m] with
    | some msg => rfl
    | none =>
      have same : s.fc.messages.set m none = s.fc.messages := stored ▸ Vector.set_getElem_self m.isLt
      simp only [Option.bind_none, same]
      rfl

theorem finishFeature_fc (deleted : Bool) (g : Feature) (s : State) :
    (finishFeature deleted g s).fc = s.fc.finish deleted g := by
  rw [finishFeature_eq]
  rfl

theorem foldl_finishFeature_fc (deleted : Bool) (l : List Feature) (s : State) :
    (l.foldl (fun t g => finishFeature deleted g t) s).fc = l.foldl (FeatureState.finish deleted) s.fc := by
  induction l generalizing s with
  | nil => rfl
  | cons g l ih => rw [List.foldl_cons, List.foldl_cons, ih, finishFeature_fc]

theorem removeSuspended_fc (deleted : Bool) (gone : Feature → Bool) (s : State) :
    (removeSuspended deleted gone s).fc =
      (s.fc.stack.filter gone).foldl (FeatureState.finish deleted)
        { s.fc with stack := s.fc.stack.filter fun g => !gone g } := foldl_finishFeature_fc deleted _ _

/-- The ending of a feature taken off a sound band leaves it sound. -/
theorem finish_bandSide {gone : List Feature} {deleted : Bool} {g : Feature} {f : FeatureState}
    (h : BandSide (g :: gone) f) : BandSide gone (f.finish deleted g) := by
  unfold FeatureState.finish
  split
  · rename_i e ref
    exact rotate_bandSide _ (finished_bandSide h fun m hm => absurd (messageOf_eq_some.mp hm) (by simp [ref]))
  · rename_i m ref
    have ended {msg' : Message} (hm : msg' ∈ f.messages[m].bind (endedMessage deleted)) :
        ∃ msg, f.messages[m] = some msg ∧ msg' = { msg with state := .waiting } := by
      obtain ⟨msg, stored, end_⟩ := Option.bind_eq_some_iff.mp hm
      exact ⟨msg, stored, endedMessage_state end_⟩
    refine rotate_bandSide _ (settle_bandSide h ref (fun msg' hm => ?_) fun msg' hm => ?_)
    · obtain ⟨msg, -, rfl⟩ := ended hm
      rfl
    · obtain ⟨msg, stored, rfl⟩ := ended hm
      exact h.texts m msg stored

/-! ### The stripped feature controller -/

/-- A message without its lines. -/
def Message.bare (msg : Message) : Message := { msg with lines := [] }

/-- The feature controller with each queue cut to its oldest entry and its messages without their lines. -/
def FeatureState.bare (f : FeatureState) : FeatureState :=
  { f with queues := f.queues.map (List.take 1), messages := f.messages.map (Option.map Message.bare) }

theorem bare_messages (f : FeatureState) (m : Fin 8) : f.bare.messages[m] = f.messages[m].map Message.bare := by
  simp [FeatureState.bare]

theorem bare_queues (f : FeatureState) (k : Level) : f.bare.queues[k] = f.queues[k].take 1 := by
  simp [FeatureState.bare]

theorem bare_queues_length (f : FeatureState) (k : Level) : f.bare.queues[k].length ≤ 4 := by
  rw [bare_queues, List.length_take]
  omega

theorem bare_texts (f : FeatureState) : TextsSound f.bare := by
  intro m msg hm
  rw [bare_messages] at hm
  obtain ⟨old, -, rfl⟩ := Option.map_eq_some_iff.mp hm
  exact fun line never => nomatch never

/-- Soundness of the band reads neither the queues nor the lines of the messages. -/
theorem bandSound_bare (s : State) : BandSound (s.withFc s.fc.bare) ↔ BandSound s := by
  have settled :
      (∀ (m : Fin 8) (msg : Message), s.fc.bare.messages[m] = some msg → MessageSound s.fc.bare m msg) ↔
      ∀ (m : Fin 8) (msg : Message), s.fc.messages[m] = some msg → MessageSound s.fc m msg := by
    simp only [bare_messages, Option.map_eq_some_iff, forall_exists_index, and_imp]
    exact forall_congr' fun m => ⟨fun h msg hm => h msg.bare msg hm rfl, fun h _ msg hm eq => eq ▸ h msg hm⟩
  have stored : (∀ g ∈ s.fc.shownAndStack, ∀ m ∈ g.messageOf, s.fc.bare.messages[m].isSome) ↔
      ∀ g ∈ s.fc.shownAndStack, ∀ m ∈ g.messageOf, s.fc.messages[m].isSome := by
    simp only [bare_messages, Option.isSome_map]
  exact and_congr_right' (and_congr_right' (and_congr_right' (and_congr settled (and_congr_left' stored))))

/-- The feature controller is sound but for the lengths of its queues and the lines of its messages, with the
features `gone` taken off the band whose endings are still to be finished. -/
def BandFit (gone : List Feature) (f : FeatureState) : Prop := BandSide gone f.bare

theorem bandSound_iff_bandFit (s : State) : BandSound s ↔ BandFit [] s.fc ∧ IdleSound s := by
  rw [← bandSound_bare]
  exact (and_iff_left ⟨bare_queues_length s.fc, bare_texts s.fc⟩).symm.trans (bandSound_iff (s.withFc s.fc.bare))

/-- The feature controller is fit when, stripped, it is a sound one but for the queues. -/
theorem bandFit_of_eq {gone : List Feature} {f g : FeatureState} (h : BandSide gone g)
    (eq : f.bare = { g with queues := f.bare.queues }) : BandFit gone f := by
  rw [BandFit, eq]
  exact ⟨h.levels, h.rotating, h.settled, h.stored, h.distinct, h.rotation, h.posting, bare_queues_length f,
    h.texts⟩

/-! ### Operations on the stripped feature controller -/

theorem bare_setMessage (f : FeatureState) (m : Fin 8) (x : Option Message) :
    { f with messages := f.messages.set m x }.bare =
      { f.bare with messages := f.bare.messages.set m (x.map Message.bare) } := by
  simp only [FeatureState.bare, Vector.map_set]

theorem bare_markRef (f : FeatureState) (r : FeatureRef) (st : MessageState) :
    (f.markRef r st).bare = f.bare.markRef r st := by
  cases r with
  | runner e => rfl
  | message m =>
    simp only [FeatureState.markRef, FeatureState.markMessage, bare_messages]
    cases f.messages[m] with
    | none => rfl
    | some msg => exact bare_setMessage f m _

theorem bare_pushShown (f : FeatureState) : f.pushShown.bare = f.bare.pushShown := by
  cases shown : f.shown with
  | none => simp only [FeatureState.pushShown, shown, FeatureState.bare]
  | some g =>
    rw [pushShown_of_some shown, pushShown_of_some (f := f.bare) shown, ← bare_markRef]
    rfl

theorem bare_resume (f : FeatureState) (g : Feature) (rest : List Feature) :
    (f.resume g rest).bare = f.bare.resume g rest := by
  rw [resume_eq, resume_eq, ← bare_markRef]
  rfl

theorem bare_best (f : FeatureState) : f.bare.best = f.best := by
  have waiting (k : Level) (x : Option Message) : waitingAt k (x.map Message.bare) = waitingAt k x := by
    cases x <;> rfl
  have head (q : List FeatureEntry) : (q.take 1).head? = q.head? := by
    cases q <;> rfl
  have first (k : Level) : f.bare.firstCandidate k = f.firstCandidate k := by
    simp only [FeatureState.firstCandidate, bare_messages, bare_queues, waiting, head]
    rfl
  have eligible (k : Level) : f.bare.eligibleAt k = f.eligibleAt k := by
    rw [FeatureState.eligibleAt, first]
    rfl
  simp only [FeatureState.best, eligible]
  rfl

theorem bare_showCandidate (f : FeatureState) (k : Level) (c : Candidate) :
    (f.showCandidate k c).bare =
      { f.bare.showCandidate k c with queues := (f.showCandidate k c).bare.queues } := by
  cases c with
  | entry e => rfl
  | message m =>
    have dwell : f.bare.dwellOf m = f.dwellOf m := by
      simp only [FeatureState.dwellOf, bare_messages]
      cases f.messages[m] <;> rfl
    have marked := bare_markRef f (.message m) .shown
    simp only [FeatureState.showCandidate, dwell]
    simp only [FeatureState.markRef] at marked
    rw [← marked]
    rfl

theorem bare_preemptor (f : FeatureState) : f.bare.preemptor = f.preemptor := by
  unfold FeatureState.preemptor
  rw [bare_best]
  rfl

theorem bare_preempt (f : FeatureState) :
    f.preempt.bare = { f.bare.preempt with queues := f.preempt.bare.queues } := by
  simp only [FeatureState.preempt, bare_preemptor]
  split
  · rw [← bare_pushShown]
    exact bare_showCandidate f.pushShown _ _
  · rfl

theorem bare_showBest (f : FeatureState) :
    f.showBest.bare = { f.bare.showBest with queues := f.showBest.bare.queues } := by
  simp only [FeatureState.showBest, bare_best]
  split
  · exact bare_showCandidate f _ _
  · rfl

theorem bare_resumes (f : FeatureState) (g : Feature) : f.bare.resumes g = f.resumes g := by
  unfold FeatureState.resumes
  rw [bare_best]
  rfl

theorem bare_select (f : FeatureState) :
    f.select.bare = { f.bare.select with queues := f.select.bare.queues } := by
  have stack : f.bare.stack = f.stack := rfl
  simp only [FeatureState.select, bare_resumes, stack]
  split
  · split
    · rw [← bare_resume]
      exact bare_preempt _
    · exact bare_showBest f
  · exact bare_showBest f

theorem bare_rotate (f : FeatureState) (k : Level) : (f.rotate k).bare = f.bare.rotate k := by
  rw [rotate_eq_ite, rotate_eq_ite]
  rfl

theorem bare_finish (deleted : Bool) (f : FeatureState) (g : Feature) :
    (f.finish deleted g).bare = f.bare.finish deleted g := by
  have ended (x : Option Message) : (x.bind (endedMessage deleted)).map Message.bare =
      (x.map Message.bare).bind (endedMessage deleted) := by
    cases x with
    | none => rfl
    | some msg =>
      show (endedMessage deleted msg).map Message.bare = endedMessage deleted msg.bare
      unfold endedMessage
      split <;> rename_i ends
      · exact (if_pos ends).symm
      · exact (if_neg ends).symm
  unfold FeatureState.finish
  cases g.ref with
  | runner e => exact bare_rotate f g.level
  | message m =>
    dsimp only
    rw [bare_rotate, bare_setMessage, ended, bare_messages]

/-! ### The stripped feature controller stays sound -/

theorem select_bandFit {f : FeatureState} (h : BandFit [] f) (idle : f.shown = none) : BandFit [] f.select :=
  bandFit_of_eq (select_keeps h idle).1 (bare_select f)

theorem preempt_bandFit {f : FeatureState} (h : BandFit [] f) : BandFit [] f.preempt :=
  bandFit_of_eq (preempt_keeps h).1 (bare_preempt f)

theorem foldl_finish_bandFit {gone : List Feature} {deleted : Bool} {f : FeatureState} (h : BandFit gone f) :
    BandFit [] (gone.foldl (FeatureState.finish deleted) f) := by
  induction gone generalizing f with
  | nil => exact h
  | cons g gone ih => exact ih (show BandSide gone _ from bare_finish deleted f g ▸ finish_bandSide h)

end Sys2Proof.Machine
end

section
/-! Every step keeps shown feature, stack and message states in agreement (R119, R122, R126, R128), whatever the runner
queues hold and the messages' lines say: each operation of the five blocks, the two resets and the passing of time. -/

namespace Sys2Proof.Machine

/-! ### What the band's soundness reads -/

/-- Soundness of the band reads the feature controller and the band height alone. -/
theorem BandSound.congr {s t : State} (h : BandSound s) (fc : t.fc = s.fc)
    (height : t.bi.bandHeight = s.bi.bandHeight) : BandSound t := by
  rw [BandSound, fc, height]
  exact h

/-- A feature controller replaced by a fit one that shows what was shown. -/
theorem BandSound.withFc {s : State} (h : BandSound s) {f : FeatureState} (fit : BandFit [] f)
    (shown : f.shown = s.fc.shown) : BandSound (s.withFc f) :=
  (bandSound_iff_bandFit _).mpr ⟨fit, fun none => shown.trans (((bandSound_iff_bandFit s).mp h).2 none)⟩

theorem BandSound.fit {s : State} (h : BandSound s) : BandFit [] s.fc := ((bandSound_iff_bandFit s).mp h).1

theorem BandSound.idle {s : State} (h : BandSound s) : IdleSound s := ((bandSound_iff_bandFit s).mp h).2

theorem OnlyList.bandSound {s t : State} (only : OnlyList s t) (h : BandSound s) : BandSound t := by
  obtain ⟨_, _, _, _, _, _, rfl⟩ := onlyList_iff.mp only
  exact h

theorem rerender_bandSound (i : Slot) {s : State} (h : BandSound s) : BandSound (rerender i s) :=
  (rerender_onlyCells i s).onlyList.bandSound h

/-! ### Selections and endings (R127 to R130) -/

theorem selectFeature_bandSound {s : State} (h : BandSound s) : BandSound (selectFeature s) := by
  refine (bandSound_iff_bandFit _).mpr ⟨?_, selectFeature_idleSound h.idle⟩
  unfold selectFeature
  split
  · rename_i idle
    exact select_bandFit h.fit (Option.isNone_iff_eq_none.mp idle.2)
  · exact h.fit

theorem testPreemption_bandSound {s : State} (h : BandSound s) : BandSound (testPreemption s) := by
  unfold testPreemption
  split
  · rename_i due
    refine (bandSound_iff_bandFit _).mpr ⟨preempt_bandFit h.fit, fun none => ?_⟩
    exact absurd (due.1.trans_eq none) (by decide)
  · exact h

theorem selectOrTest_bandSound {s : State} (h : BandSound s) : BandSound (selectOrTest s) := by
  unfold selectOrTest
  split
  · exact selectFeature_bandSound h
  · exact testPreemption_bandSound h

theorem endShown_bandSound {deleted : Bool} {s : State} (h : BandFit [] s.fc) : BandSound (endShown deleted s) := by
  refine (bandSound_iff_bandFit _).mpr ⟨?_, endShown_idleSound deleted s⟩
  unfold endShown
  split
  · rename_i g shown
    have parts : ([g] ++ ((none : Option Feature).toList ++ s.fc.stack)).Perm s.fc.shownAndStack :=
      .of_eq (shownAndStack_of_some shown).symm
    have taken : BandFit [g] { s.fc with shown := none } := by
      refine taken_bandSide h parts (List.sublist_append_right _ _) (fun _ never => nomatch never) (.refl _)
        fun g' _ other => ⟨fun here => ?_, id⟩
      exact absurd (List.mem_singleton.mpr (Option.some.inj (here.symm.trans shown))) other
    rw [finishFeature_fc]
    exact foldl_finish_bandFit (gone := [g]) taken
  · exact h

theorem endAndSelect_bandSound {deleted : Bool} {s : State} (h : BandSound s) :
    BandSound (endAndSelect deleted s) := selectFeature_bandSound (endShown_bandSound h.fit)

theorem removeSuspended_bandSound {deleted : Bool} {gone : Feature → Bool} {s : State} (h : BandSound s) :
    BandSound (removeSuspended deleted gone s) := by
  have parts : (s.fc.stack.filter gone ++ (s.fc.shown.toList ++ s.fc.stack.filter fun g => !gone g)).Perm
      s.fc.shownAndStack :=
    (List.perm_append_comm_assoc _ _ _).trans ((List.filter_append_perm gone s.fc.stack).append_left _)
  have taken : BandFit (s.fc.stack.filter gone) { s.fc with stack := s.fc.stack.filter fun g => !gone g } :=
    taken_bandSide h.fit parts (List.filter_sublist.append_left _) (fun _ => id) List.filter_sublist
      fun g _ other => ⟨id, fun here => List.mem_filter.mpr ⟨here, by
        by_contra goes
        exact other (List.mem_filter.mpr ⟨here, by simpa using goes⟩)⟩⟩
  refine (bandSound_iff_bandFit _).mpr ⟨?_, idleSound_of_onlyBand (removeSuspended_onlyBand deleted gone s) h.idle
    fun _ => .inl (removeSuspended_shown deleted gone s)⟩
  rw [removeSuspended_fc]
  exact foldl_finish_bandFit taken

theorem maskLevel_bandSound (k : Level) {s : State} (h : BandSound s) : BandSound (maskLevel k s) := by
  unfold maskLevel
  refine removeSuspended_bandSound ?_
  split
  · exact endShown_bandSound h.fit
  · exact h

theorem maskLevels_bandSound (old new : BitVec 8) {s : State} (h : BandSound s) :
    BandSound (maskLevels old new s) := by
  unfold maskLevels
  generalize (List.finRange 8).filter (newlyMasked old new) = levels
  induction levels generalizing s with
  | nil => exact h
  | cons k levels ih => exact ih (maskLevel_bandSound k h)

/-! ### Feature requests and messages (R120, R122 to R124) -/

theorem dropOldest_bandSound (k : Level) {s : State} (h : BandSound s) : BandSound (dropOldest k s) := by
  rcases dropOldest_cases k s with ⟨-, same⟩ | ⟨e, rest, -, -, eq⟩
  · rwa [same]
  · rw [eq]
    have counted : BandSide [] { s.fc.bare with drops := min 65535 (s.fc.drops + 1) } :=
      BandSide.congr h.fit rfl rfl rfl rfl rfl rfl (.inl rfl)
    exact BandSound.withFc (s := s.withRt (s.rt.release e.slot)) h (bandFit_of_eq counted rfl) rfl

theorem requestFeature_bandSound {k : Level} {e : FeatureEntry} {s : State} (h : BandSound s) :
    BandSound (requestFeature k e s) := by
  unfold requestFeature
  split
  · exact h
  · split
    · exact h
    · have dropped := dropOldest_bandSound k h
      exact selectOrTest_bandSound
        (BandSound.withFc (s := (dropOldest k s).withRt _) dropped (bandFit_of_eq dropped.fit rfl) rfl)

/-- A message stored or deleted: its state is that of its place, and it is deleted only from no place. -/
theorem setMessage_bandFit {f : FeatureState} {m : Fin 8} {x : Option Message} {posting : List (Fin 8)}
    (h : BandFit [] f) (state : ∀ msg ∈ x, MessageSound f m msg)
    (stored : x.isSome = true ∨ ∀ g ∈ f.shownAndStack, g.ref ≠ .message m)
    (places : posting.Perm (List.finRange 8)) : BandFit [] { f with messages := f.messages.set m x, posting } := by
  have bare : { f with messages := f.messages.set m x, posting }.bare =
      { f.bare with messages := f.bare.messages.set m (x.map Message.bare), posting } :=
    congrArg (fun g : FeatureState => { g with posting }) (bare_setMessage f m x)
  rw [BandFit, bare]
  refine setMessage_bandSide h (fun msg hm => ?_) (stored.imp_left Option.isSome_map.trans) (fun msg hm => ?_) places
  all_goals obtain ⟨old, hold, rfl⟩ := Option.map_eq_some_iff.mp hm
  · exact state old hold
  · exact fun line never => nomatch never

/-- A message of a fit feature controller has the state of its place (R122). -/
theorem BandFit.settled {f : FeatureState} (h : BandFit [] f) {m : Fin 8} {msg : Message}
    (stored : f.messages[m] = some msg) : MessageSound f m msg :=
  BandSide.settled h m msg.bare (by rw [bare_messages, stored]; rfl) List.not_mem_nil

theorem postChecked_bandSound {m : Fin 8} (k : Level) (duration : Nat) {lines : List (List Byte)} {s : State}
    (h : BandSound s) : BandSound (postChecked m k duration lines s) := by
  have fit := h.fit
  unfold postChecked
  split
  · rename_i empty
    have free := ref_ne_of_empty (m := m) fit (by rw [bare_messages, empty]; rfl)
    have listed : m ∈ s.fc.posting := fit.posting.mem_iff.mpr (List.mem_finRange m)
    refine selectOrTest_bandSound (h.withFc (setMessage_bandFit fit (fun msg hm => ?_) (.inl rfl) ?_) rfl)
    · exact Option.some.inj hm ▸ messageSound_of_free rfl free
    · exact ((List.perm_append_singleton m _).trans (List.perm_cons_erase listed).symm).trans fit.posting
  · rename_i msg stored
    have posted : BandSound (s.withFc (s.fc.repost m msg k duration lines)) := by
      refine h.withFc (setMessage_bandFit fit (fun msg' hm => ?_) (.inl rfl) fit.posting) rfl
      have settled := fit.settled stored
      exact Option.some.inj hm ▸ settled
    dsimp only
    split
    · split
      · exact selectFeature_bandSound posted
      · split
        · exact posted
        · exact testPreemption_bandSound posted
    · exact posted
    · exact posted

theorem deleteStored_bandSound (m : Fin 8) {s : State} (h : BandSound s) : BandSound (deleteStored m s) := by
  unfold deleteStored
  split
  · exact h
  · rename_i msg stored
    split
    · exact endAndSelect_bandSound h
    · exact removeSuspended_bandSound h
    · rename_i waiting
      have free := ref_ne_of_waiting (m := m) (msg := msg.bare) h.fit (by rw [bare_messages, stored]; rfl) waiting
      exact h.withFc (setMessage_bandFit (x := none) h.fit (fun _ never => nomatch never) (.inr free) h.fit.posting) rfl

/-! ### Crossings (R45) -/

theorem setLeader_bandSound {s : State} (h : BandSound s) (pass : PassNo) :
    BandSound (s.withFc (s.fc.setLeader pass)) := by
  cases pass <;> exact h

theorem routePass_bandSound (i : Slot) (pass : PassNo) (x : Nat) (r : Record) {s : State} (h : BandSound s) :
    BandSound (routePass i pass x r s) := by
  have led := setLeader_bandSound h pass
  unfold routePass
  split
  · dsimp only
    split
    · exact requestFeature_bandSound led
    · exact (arrive_onlyList ..).bandSound led
  · split
    · exact requestFeature_bandSound h
    · exact (arrive_onlyList ..).bandSound h

theorem routeCrossing_bandSound (i : Slot) (cls : Class) (x : Nat) (r : Record) {s : State} (h : BandSound s) :
    BandSound (routeCrossing i cls x r s) := by
  cases cls with
  | pass1 => exact routePass_bandSound i .one x r h
  | pass2 => exact routePass_bandSound i .two x r h
  | revision1 | revision2 => exact rerender_bandSound i h
  | duplicate | extra => exact h

theorem crossSlot_bandSound (i : Slot) (reader : Reader) (timed : Bool) (x : Nat) {s : State} (h : BandSound s) :
    BandSound (crossSlot i reader timed x s) := by
  cases occupied : s.rt.slots[i] with
  | none =>
    simp only [crossSlot, occupied]
    exact h
  | some r =>
    have logged : BandSound (recordedAndLogged i reader timed x r s) := by
      rw [recordedAndLogged_eq]
      exact h
    rw [crossSlot_of_occupied reader timed x occupied, crossingRecency_eq]
    exact routeCrossing_bandSound i _ x _ logged

/-! ### Board Layout and Race Clear (R157, R172) -/

theorem listLaidOut_fc (n b : Nat) (w : Wave) (s : State) : (listLaidOut n b w s).fc = s.fc := by
  unfold listLaidOut
  split
  · obtain ⟨_, _, _, _, _, _, eq⟩ := onlyList_iff.mp
      (headTest_onlyList (writeList (emptyList (n - b) (withLayout n b w s))))
    exact (congrArg State.fc eq).trans rfl
  · rfl

theorem layoutBand_bandSound (oldB : Nat) (oldWave : Wave) {s : State} (h : BandFit [] s.fc) :
    BandSound (layoutBand oldB oldWave s) := by
  unfold layoutBand
  split
  · exact endShown_bandSound h
  · rename_i open_
    have sound : BandSound s := (bandSound_iff_bandFit s).mpr ⟨h, fun none => absurd none open_⟩
    split
    · exact selectFeature_bandSound sound
    · split
      · exact sound
      · split
        · exact (renderIdleClock_onlyImage s).onlyList.bandSound sound
        · exact sound

theorem layoutChecked_bandSound (n b : Nat) (w : Wave) {s : State} (h : BandSound s) :
    BandSound (layoutChecked n b w s) :=
  (layoutBand_bandSound (s := listLaidOut n b w s) _ _ (listLaidOut_fc n b w s ▸ h.fit)).congr rfl rfl

/-- A sound feature controller that shows nothing is sound on a band of any height. -/
theorem bandSound_of_empty {s : State} (sound : BandSide [] s.fc) (shown : s.fc.shown = none) : BandSound s :=
  ((bandSound_iff s).mpr ⟨sound, fun _ => shown⟩).1

theorem atPowerOn_bandSound (requestLine : Vector Bool 4) (masterBusy resetHeld : Bool) (pending : List Instr) :
    BandSound (State.atPowerOn requestLine masterBusy resetHeld pending) :=
  bandSound_of_empty featureAtPowerOn_bandSide rfl

/-! ### Every operation of the five blocks -/

theorem blockMove_bandSound {s t : State} (move : BlockMove s t) (h : BandSound s) : BandSound t := by
  cases move with
  | clockChanged => exact (clockValueChanged_onlyList s).bandSound h
  | clockRendered => exact (renderIdleClock_onlyImage s).onlyList.bandSound h
  | waveStored w entry => exact (storeWave_onlyImage w entry s).onlyList.bandSound (s := withWave w entry s) h
  | visited i =>
    rcases visitSlot_cases i s s.sa with ⟨-, same⟩ | ⟨r, -, -, visit⟩
    · rw [same]
      exact h
    · rw [visit]
      exact rerender_bandSound (s := s.withRt _) i h
  | @crossed reader timed bib x i u bibs slot =>
    obtain ⟨only, -⟩ := crossingSlot_steps bibs slot
    rw [only]
    exact crossSlot_bandSound (s := s.withRt u.rt) i reader timed x h
  | filled fields found =>
    obtain ⟨u, -, eq⟩ := fillSlot_cases s.sa found (fillFields_name fields)
    rw [eq]
    exact rerender_bandSound (s := s.withRt u) _ h
  | corrected i pass tick =>
    rcases correctSlot_cases i pass tick s s.sa with eq | ⟨u, -, eq⟩
    · rwa [eq]
    · rw [eq]
      exact rerender_bandSound (s := s.withRt u) _ h
  | messagePosted m k duration => exact postChecked_bandSound k duration h
  | messageDeleted m => exact deleteStored_bandSound m h
  | shownEnded => exact endAndSelect_bandSound h
  | suspendedEnded gone => exact removeSuspended_bandSound h
  | featureSetUp mode mask leaderLevel dwell idle =>
    have stored : BandFit [] { s.fc with mode, mask, leaderLevel, runnerDwell := dwell } :=
      BandSide.congr h.fit rfl rfl rfl rfl rfl rfl idle
    exact selectOrTest_bandSound (maskLevels_bandSound _ mask (h.withFc stored rfl))
  | headTested => exact (headTest_onlyList s).bandSound h
  | lineExpired j => exact (emptyBuffer_onlyList j s).bandSound h
  | bottomExpired j => exact ((emptyBuffer_onlyList j s).trans (headTest_onlyList _)).bandSound h
  | listTimed minDwell lineExpiry leadDelay ageLimit =>
    exact ((expireLines_onlyList _ _).trans (headTest_onlyList _)).bandSound (s := s.withLs _) h
  | raceCleared => exact bandSound_of_empty (raceCleared_bandSide s.fc) rfl
  | laidOut w => exact layoutChecked_bandSound _ _ w h
  | boardSet layout => exact h.congr rfl layout.2
  | flushed => exact h.congr (State.withRt_fc s _) (congrArg _ (State.withRt_bi s _))
  | stays | preloaded | staleFilled | fetched | fillsTimedOut | pinned | pinnedNew | unpinned | windowSet => exact h

/-! ### Every step -/

theorem exec_bandSound {i : Instr} {s t : State} (h : exec i s = .next t) (hs : BandSound s) : BandSound t := by
  by_cases hp : i = .powerOn
  · subst hp
    rw [← Host.Outcome.next.inj h, startScan, buildFrom_eq]
    exact (atPowerOn_bandSound s.lc.requestLine s.lc.masterBusy false s.pending).congr rfl rfl
  · by_cases hr : i = .resetAsserted
    · subst hr
      exact Host.Outcome.next.inj h ▸ atPowerOn_bandSound ..
    · obtain ⟨u, v, before, move, after⟩ := exec_movesBlocks h hp hr
      obtain ⟨-, -, beforeFc, -, beforeBi⟩ := blocks_eq_iff.mp before
      obtain ⟨-, -, afterFc, -, afterBi⟩ := blocks_eq_iff.mp after
      exact (blockMove_bandSound move (hs.congr beforeFc (congrArg _ beforeBi))).congr afterFc (congrArg _ afterBi)

theorem passMillisecond_bandSound {s : State} (h : BandSound s) : BandSound (passMillisecond s) := by
  unfold passMillisecond
  split
  · exact h
  · refine BandSound.congr (s := s.withFc (countDown s.fc)) ?_ rfl rfl
    rcases countDown_eq s.fc with same | ⟨g, g', shown, level, ref, eq⟩
    · exact same.symm ▸ h
    · rw [eq]
      refine (bandSound_iff_bandFit _).mpr ⟨withDwell_bandSide h.fit shown level ref, fun none => ?_⟩
      exact nomatch (h.idle none).symm.trans shown

/-- Settles O47: every operation of the five blocks keeps the band sound, the resets start from an empty band, and
time moves the shown feature's dwell alone. -/
theorem everyStepKeepsBandSound : Obligations.EveryStepKeepsBandSound := fun _ _ hs step =>
  step_keeps (fun _ _ => id) (fun _ _ _ => exec_bandSound) (fun _ => passMillisecond_bandSound) step hs

end Sys2Proof.Machine
end

section
/-! Feature requests (R120): what is shown, queued or suspended for a slot, and what a request for it makes of the
band. -/

namespace Sys2Proof.Machine

theorem isFor_iff (g : Feature) (i : Slot) : g.isFor i = true ↔ g.slotOf = some i := by
  cases ref : g.ref <;> simp [Feature.isFor, Feature.slotOf, ref]

theorem shows_iff (f : FeatureState) (i : Slot) : f.shows i = true ↔ ∃ g ∈ f.shown, g.slotOf = some i := by
  cases shown : f.shown <;> simp [FeatureState.shows, shown, isFor_iff]

theorem mem_featureSlots {f : FeatureState} {i : Slot} :
    i ∈ featureSlots f ↔
      (∃ k : Level, ∃ e ∈ f.queues[k], e.slot = i) ∨ ∃ g ∈ f.shownAndStack, g.slotOf = some i := by
  simp only [featureSlots, List.mem_append, List.mem_flatMap, List.mem_map, List.mem_filterMap]
  refine or_congr_left ⟨?_, ?_⟩
  · rintro ⟨q, hq, e, he, rfl⟩
    obtain ⟨k, hk, rfl⟩ := Vector.getElem_of_mem (Vector.mem_toList_iff.mp hq)
    exact ⟨⟨k, hk⟩, e, he, rfl⟩
  · rintro ⟨k, e, he, rfl⟩
    exact ⟨_, Vector.mem_toList_iff.mpr (Vector.getElem_mem k.isLt), e, he, rfl⟩

/-- A slot is queued or suspended when it is among the feature controller's with nothing shown. -/
theorem holdsSlot_iff (f : FeatureState) (i : Slot) :
    f.holdsSlot i = true ↔ i ∈ featureSlots { f with shown := none } := by
  simp [mem_featureSlots, FeatureState.holdsSlot, FeatureState.shownAndStack, isFor_iff]

/-- The slots of a feature controller are the one shown and those queued or suspended. -/
theorem not_mem_featureSlots_iff (f : FeatureState) (i : Slot) :
    i ∉ featureSlots f ↔ f.shows i = false ∧ f.holdsSlot i = false := by
  rw [← Bool.not_eq_true, ← Bool.not_eq_true, shows_iff, holdsSlot_iff, mem_featureSlots, mem_featureSlots]
  simp only [FeatureState.shownAndStack, List.mem_append, Option.mem_toList, or_and_right, exists_or,
    Option.toList_none, List.not_mem_nil, false_or]
  exact (not_congr or_left_comm).trans not_or

/-- A request for a slot neither shown nor queued nor suspended joins its queue (R120). -/
theorem requestFeature_of_new {k : Level} {e : FeatureEntry} {s : State} (new : e.slot ∉ featureSlots s.fc) :
    requestFeature k e s = selectOrTest (queueEntry k e (dropOldest k s)) := by
  obtain ⟨shown, queued⟩ := (not_mem_featureSlots_iff ..).mp new
  rw [requestFeature, if_neg (by simp [shown]), if_neg (by simp [queued])]

theorem dropOldest_of_room {k : Level} {s : State} (room : s.fc.queues[k].length < 4) : dropOldest k s = s := by
  rcases dropOldest_cases k s with ⟨-, same⟩ | ⟨_, _, -, full, -⟩
  · exact same
  · omega

/-- Settles O43: by what shows the slot, and then by the room in the level's queue. -/
theorem featureRequestResult : Obligations.FeatureRequestResult := by
  intro k e s
  refine ⟨fun shown => if_pos ((shows_iff ..).mpr shown), fun notShown => ⟨fun queued => ?_, fun new =>
    ⟨fun room => ?_, fun old rest queue full => ?_⟩⟩⟩
  · rw [requestFeature, if_neg, if_pos ((holdsSlot_iff ..).mpr queued)]
    rintro shown
    obtain ⟨g, hg, same⟩ := (shows_iff ..).mp shown
    exact notShown g hg same
  · rw [requestFeature_of_new new, dropOldest_of_room room]
    rfl
  · rw [requestFeature_of_new new]
    rcases dropOldest_cases k s with ⟨room, -⟩ | ⟨old', rest', queue', -, dropped⟩
    · omega
    · obtain ⟨rfl, rfl⟩ := List.cons.inj (queue.symm.trans queue')
      rw [dropped]
      simp [queueEntry, State.withRt, State.withFc]

end Sys2Proof.Machine
end

section
/-! The best candidate, the selection and the preemption test, case by case (R125 to R128). -/

namespace Sys2Proof.Machine

/-! ### The best candidate (R125, R126) -/

/-- Message `m` is WAITING at level `k` (R125). -/
def FeatureState.WaitsAt (f : FeatureState) (k : Level) (m : Fin 8) : Prop :=
  ∃ msg, f.messages[m] = some msg ∧ msg.state = .waiting ∧ msg.level = k

/-- Level `k` is not masked and its first candidate is `c`: its WAITING message with the first posting place, or
without one the oldest entry of its queue (R125). -/
def FeatureState.Offers (f : FeatureState) (k : Level) (c : Candidate) : Prop :=
  f.mask.getLsbD k.val = false ∧
    ((∃ before m after, c = .message m ∧ f.posting = before ++ m :: after ∧
        f.WaitsAt k m ∧ ∀ n ∈ before, ¬ f.WaitsAt k n) ∨
      ((∀ n ∈ f.posting, ¬ f.WaitsAt k n) ∧ ∃ e rest, c = .entry e ∧ f.queues[k] = e :: rest))

theorem waitingAt_iff (f : FeatureState) (k : Level) (m : Fin 8) :
    waitingAt k f.messages[m] = true ↔ f.WaitsAt k m := by
  unfold FeatureState.WaitsAt
  cases f.messages[m] <;> simp [waitingAt]

/-- The posting places find a level's first WAITING message. -/
theorem find_waiting_eq_some_iff (f : FeatureState) (k : Level) (m : Fin 8) :
    (f.posting.find? fun m => waitingAt k f.messages[m]) = some m ↔
      ∃ before after, f.posting = before ++ m :: after ∧ f.WaitsAt k m ∧ ∀ n ∈ before, ¬ f.WaitsAt k n := by
  simp only [List.find?_eq_some_iff_append, Bool.not_eq_true', ← Bool.not_eq_true, waitingAt_iff]
  exact ⟨fun ⟨waits, before, after, places, first⟩ => ⟨before, after, places, waits, first⟩,
    fun ⟨before, after, places, waits, first⟩ => ⟨waits, before, after, places, first⟩⟩

theorem find_waiting_eq_none_iff (f : FeatureState) (k : Level) :
    (f.posting.find? fun m => waitingAt k f.messages[m]) = none ↔ ∀ n ∈ f.posting, ¬ f.WaitsAt k n := by
  simp only [List.find?_eq_none, waitingAt_iff]

theorem firstCandidate_eq_some_iff (f : FeatureState) (k : Level) (c : Candidate) :
    f.firstCandidate k = some c ↔
      (∃ before m after, c = .message m ∧ f.posting = before ++ m :: after ∧
          f.WaitsAt k m ∧ ∀ n ∈ before, ¬ f.WaitsAt k n) ∨
        ((∀ n ∈ f.posting, ¬ f.WaitsAt k n) ∧ ∃ e rest, c = .entry e ∧ f.queues[k] = e :: rest) := by
  unfold FeatureState.firstCandidate
  split
  · rename_i m found
    obtain ⟨before, after, places, waits, first⟩ := (find_waiting_eq_some_iff f k m).mp found
    constructor
    · rintro ⟨⟩
      exact .inl ⟨before, m, after, rfl, places, waits, first⟩
    · rintro (⟨before', m', after', rfl, places', waits', first'⟩ | ⟨never, -⟩)
      · have found' := (find_waiting_eq_some_iff f k m').mpr ⟨before', after', places', waits', first'⟩
        rw [Option.some.inj (found.symm.trans found')]
      · exact absurd waits (never m (by simp [places]))
  · rename_i absent
    have never := (find_waiting_eq_none_iff f k).mp absent
    constructor
    · intro head
      obtain ⟨e, here, rfl⟩ := Option.map_eq_some_iff.mp head
      exact .inr ⟨never, e, _, rfl, List.eq_cons_of_mem_head? here⟩
    · rintro (⟨before, m, after, rfl, places, waits, -⟩ | ⟨-, e, rest, rfl, queue⟩)
      · exact absurd waits (never m (by simp [places]))
      · rw [queue]
        rfl

theorem eligibleAt_eq_some_iff (f : FeatureState) (k : Level) (c : Candidate) :
    f.eligibleAt k = some c ↔ f.Offers k c := by
  rw [FeatureState.Offers, ← firstCandidate_eq_some_iff, FeatureState.eligibleAt, FeatureState.masked]
  cases f.mask.getLsbD k.val <;> simp

theorem eligibleAt_eq_none_iff (f : FeatureState) (k : Level) :
    f.eligibleAt k = none ↔ ∀ c, ¬ f.Offers k c := by
  simp only [← eligibleAt_eq_some_iff, Option.eq_none_iff_forall_ne_some, ne_eq]

theorem best_eq_some_iff (f : FeatureState) (k : Level) (c : Candidate) :
    f.best = some (k, c) ↔ ∃ before after, f.priority = before ++ k :: after ∧ f.Offers k c ∧
      ∀ j ∈ before, ∀ d, ¬ f.Offers j d := by
  simp only [FeatureState.best, List.findSome?_eq_some_iff, Option.map_eq_some_iff, Option.map_eq_none_iff,
    eligibleAt_eq_some_iff, eligibleAt_eq_none_iff, Prod.mk.injEq]
  constructor
  · rintro ⟨before, _, after, places, ⟨_, offers, rfl, rfl⟩, first⟩
    exact ⟨before, after, places, offers, first⟩
  · rintro ⟨before, after, places, offers, first⟩
    exact ⟨before, k, after, places, ⟨c, offers, rfl, rfl⟩, first⟩

theorem best_eq_none_iff (f : FeatureState) : f.best = none ↔ ∀ k ∈ f.priority, ∀ c, ¬ f.Offers k c := by
  simp only [FeatureState.best, List.findSome?_eq_none_iff, Option.map_eq_none_iff, eligibleAt_eq_none_iff]

theorem bestCandidate : Claims.BestCandidate := by
  intro f priority waiting offers
  have levels : priority = f.priority := by
    simp only [priority, FeatureState.priority]
    cases f.mode <;> rfl
  refine ⟨fun before after k c places offer first => ?_, fun none => ?_⟩
  · exact (best_eq_some_iff f k c).mpr ⟨before, after, levels ▸ places, offer, first⟩
  · exact (best_eq_none_iff f).mpr (levels ▸ none)

/-! ### A candidate shown, a message marked (R127, R128) -/

theorem showingACandidate : Claims.ShowingACandidate := by
  refine fun f k => ⟨fun m msg stored => ⟨?_, fun state => ?_⟩, fun e rest queue => ?_, fun e state => rfl⟩
  · simp only [FeatureState.showCandidate, FeatureState.markMessage, FeatureState.dwellOf, stored, messageDwell]
  · simp only [FeatureState.markRef, FeatureState.markMessage, stored]
  · simp only [FeatureState.showCandidate, queue, List.tail_cons]

/-! ### The preemption test (R128) -/

theorem preemptsLevel_iff (mode : FeatureMode) (k shown : Level) :
    preemptsLevel mode k shown = true ↔
      (mode = .nested ∧ k < shown) ∨ (mode = .rotating ∧ k = 0 ∧ shown ≠ 0) := by
  cases mode <;> simp [preemptsLevel]

theorem preemptor_of_best {f : FeatureState} {g : Feature} {k : Level} {c : Candidate} (shown : f.shown = some g)
    (best : f.best = some (k, c)) (preempts : preemptsLevel f.mode k g.level = true) :
    f.preemptor = some (k, c) := by
  simp only [FeatureState.preemptor, shown, best, preempts, if_true]

theorem preemptor_eq_none {f : FeatureState} {g : Feature} (shown : f.shown = some g)
    (stays : ∀ k c, f.best = some (k, c) → ¬ preemptsLevel f.mode k g.level = true) : f.preemptor = none := by
  rcases preemptor_cases f with none | ⟨g', k, c, shown', best, preempts, -⟩
  · exact none
  · obtain rfl := Option.some.inj (shown.symm.trans shown')
    exact absurd preempts (stays k c best)

theorem preemptor_of_idle {f : FeatureState} (idle : f.shown = none) : f.preemptor = none := by
  simp only [FeatureState.preemptor, idle]

theorem preempt_of_preemptor {f : FeatureState} {g : Feature} {k : Level} {c : Candidate} (shown : f.shown = some g)
    (preemptor : f.preemptor = some (k, c)) :
    f.preempt =
      ({ f.markRef g.ref .suspended with shown := none, stack := g :: f.stack }).showCandidate k c := by
  simp only [FeatureState.preempt, preemptor, FeatureState.pushShown, shown]

theorem preempt_of_none {f : FeatureState} (preemptor : f.preemptor = none) : f.preempt = f := by
  simp only [FeatureState.preempt, preemptor]

theorem testPreemption_of_none {s : State} (none : s.fc.preemptor = none) : testPreemption s = s :=
  if_neg (by simp [none])

theorem preemptionTestResult : Claims.PreemptionTestResult := by
  intro g s open_ shown pushed preempts
  refine ⟨fun k c best due => ?_, fun stays => ?_⟩
  · have preemptor := preemptor_of_best shown best ((preemptsLevel_iff ..).mpr due)
    rw [testPreemption, if_pos ⟨open_, by simp [preemptor]⟩, preempt_of_preemptor shown preemptor]
  · exact testPreemption_of_none (preemptor_eq_none shown fun k c best due =>
      stays k c best ((preemptsLevel_iff ..).mp due))

/-! ### The selection (R127) -/

theorem whenSelectionsAreMade : Claims.WhenSelectionsAreMade := by
  refine fun s => ⟨fun none => ?_, fun open_ idle => ?_, fun shown => ?_⟩
  · have select : selectFeature s = s := if_neg (by simp [none])
    have test : testPreemption s = s := if_neg (by simp [none])
    exact ⟨select, test, by rw [selectOrTest, select, test, ite_self]⟩
  · exact ⟨if_pos ⟨open_, by simp [idle]⟩, if_pos (by simp [idle]),
      testPreemption_of_none (preemptor_of_idle idle)⟩
  · have shown' : ¬ s.fc.shown.isNone = true := by simpa using shown
    exact ⟨if_neg fun both => shown' both.2, if_neg shown'⟩

/-- The message of a resumed feature is SHOWN, so that the resumption adds no candidate (R125, R127). -/
theorem resume_waitsAt {f : FeatureState} {g : Feature} {rest : List Feature} {k : Level} {m : Fin 8}
    (waits : (f.resume g rest).WaitsAt k m) : f.WaitsAt k m := by
  obtain ⟨msg, stored, state, level⟩ := waits
  rw [resume_eq] at stored
  replace stored := (markRef_messages ..).symm.trans stored
  split at stored
  · obtain ⟨old, -, rfl⟩ := Option.map_eq_some_iff.mp stored
    cases state
  · exact ⟨msg, stored, state, level⟩

theorem firstCandidate_isSome_iff (f : FeatureState) (k : Level) :
    (f.firstCandidate k).isSome ↔ (∃ n ∈ f.posting, f.WaitsAt k n) ∨ f.queues[k] ≠ [] := by
  unfold FeatureState.firstCandidate
  split
  · rename_i m found
    obtain ⟨before, after, places, waits, -⟩ := (find_waiting_eq_some_iff f k m).mp found
    exact iff_of_true rfl (.inl ⟨m, by simp [places], waits⟩)
  · rename_i absent
    have never := (find_waiting_eq_none_iff f k).mp absent
    rw [or_iff_right (by simpa using never)]
    cases f.queues[k] <;> simp

theorem exists_offers_iff (f : FeatureState) (k : Level) :
    (∃ c, f.Offers k c) ↔
      f.mask.getLsbD k.val = false ∧ ((∃ n ∈ f.posting, f.WaitsAt k n) ∨ f.queues[k] ≠ []) := by
  simp only [← eligibleAt_eq_some_iff, ← Option.isSome_iff_exists, ← firstCandidate_isSome_iff]
  rw [FeatureState.eligibleAt, FeatureState.masked]
  cases f.mask.getLsbD k.val <;> simp

/-- A level with a candidate after a resumption had one before it. -/
theorem offers_of_resume {f : FeatureState} {g : Feature} {rest : List Feature} {k : Level} {c : Candidate}
    (offers : (f.resume g rest).Offers k c) : ∃ d, f.Offers k d := by
  obtain ⟨open_, candidates⟩ := (exists_offers_iff _ k).mp ⟨c, offers⟩
  have same := resume_eq f g rest
  refine (exists_offers_iff f k).mpr
    ⟨by rwa [same] at open_, candidates.imp ?_ fun queued => by rwa [same] at queued⟩
  rintro ⟨n, places, waits⟩
  exact ⟨n, by rwa [same] at places, resume_waitsAt waits⟩

/-- In NESTED the best candidate's level is the lowest that has one (R126). -/
theorem best_le_of_offers {f : FeatureState} {j : Level} {d : Candidate} (mode : f.mode = .nested)
    (offers : f.Offers j d) : ∃ k c, f.best = some (k, c) ∧ k ≤ j := by
  have levels : f.priority = List.finRange 8 := by simp only [FeatureState.priority, mode]
  cases best : f.best with
  | none => exact absurd offers ((best_eq_none_iff f).mp best j (levels ▸ List.mem_finRange j) d)
  | some found =>
    obtain ⟨k, c⟩ := found
    obtain ⟨before, after, places, -, first⟩ := (best_eq_some_iff f k c).mp best
    rw [levels] at places
    have sorted := List.pairwise_le_finRange 8
    rw [places, List.pairwise_append, List.pairwise_cons] at sorted
    obtain ⟨-, ⟨least, -⟩, -⟩ := sorted
    refine ⟨k, c, rfl, ?_⟩
    rcases List.mem_append.mp (places ▸ List.mem_finRange j) with here | here
    · exact absurd offers (first j here d)
    · rcases List.mem_cons.mp here with rfl | here
      · exact le_refl j
      · exact least j here

theorem select_of_resumes {f : FeatureState} {g : Feature} {rest : List Feature} (stack : f.stack = g :: rest)
    (resumes : f.resumes g = true) : f.select = (f.resume g rest).preempt := by
  simp only [FeatureState.select, stack, resumes, if_true]

theorem resumes_of_nested {f : FeatureState} {g : Feature} (mode : f.mode = .nested) :
    f.resumes g = true ↔ ∀ k c, f.best = some (k, c) → g.level ≤ k := by
  unfold FeatureState.resumes
  rw [mode]
  rcases f.best with _ | ⟨k, c⟩ <;> simp

/-- In NESTED no candidate preempts a feature resumed because none of a lower level is eligible. -/
theorem resume_preemptor_of_nested {f : FeatureState} {g : Feature} (rest : List Feature) (mode : f.mode = .nested)
    (least : ∀ k c, f.best = some (k, c) → g.level ≤ k) : (f.resume g rest).preemptor = none := by
  refine preemptor_eq_none (g := g) rfl fun k c best preempts => ?_
  obtain ⟨_, _, -, offers, -⟩ := (best_eq_some_iff ..).mp best
  obtain ⟨d, before⟩ := offers_of_resume offers
  obtain ⟨j, e, lowest, le⟩ := best_le_of_offers mode before
  rw [resume_eq] at preempts
  rcases (preemptsLevel_iff ..).mp preempts with ⟨-, below⟩ | ⟨rotating, -⟩
  · exact absurd ((least j e lowest).trans le) (not_le.mpr below)
  · exact nomatch mode.symm.trans rotating

theorem selectionCases : Claims.SelectionCases := by
  intro f idle show_
  have showBest : f.showBest = show_ f.best := by
    unfold FeatureState.showBest show_
    cases f.best <;> rfl
  refine ⟨fun stack => by simp only [FeatureState.select, stack, showBest], fun g rest stack => ?_⟩
  intro resumed
  refine ⟨fun mode => ⟨fun k c best below => ?_, fun least => ?_⟩, fun mode => ?_⟩
  · have stays : ¬ f.resumes g = true := fun resumes =>
      absurd ((resumes_of_nested mode).mp resumes k c best) (not_le.mpr below)
    simp only [FeatureState.select, stack, stays, showBest, best]
    rfl
  · rw [select_of_resumes stack ((resumes_of_nested mode).mpr least)]
    exact preempt_of_none (resume_preemptor_of_nested rest mode least)
  · have select : f.select = resumed.preempt :=
      select_of_resumes stack (by simp only [FeatureState.resumes, mode])
    have rotating : resumed.mode = .rotating := (congrArg FeatureState.mode (resume_eq f g rest)).trans mode
    rw [select]
    refine ⟨fun stays => preempt_of_none (preemptor_eq_none (g := g) rfl fun k c best preempts => ?_),
      fun c best level => preempt_of_preemptor (g := g) rfl (preemptor_of_best rfl best ?_)⟩
    · rcases (preemptsLevel_iff ..).mp preempts with ⟨nested, -⟩ | ⟨-, zero, level⟩
      · exact nomatch nested.symm.trans rotating
      · exact (stays k c best).elim (· zero) level
    · exact (preemptsLevel_iff ..).mpr (.inr ⟨rotating, rfl, level⟩)

/-- Settles O44: the best candidate, what showing one does, the selection, when selections are made, and the preemption
test. -/
theorem selectionResult : Obligations.SelectionResult :=
  ⟨bestCandidate, showingACandidate, selectionCases, whenSelectionsAreMade, preemptionTestResult⟩

end Sys2Proof.Machine
end

section
/-! Post Message and Delete Message: what each checks, and what it makes of a message in each of its states (R122 to
R124). -/

namespace Sys2Proof.Machine

/-! ### The checks of Post Message (R123) -/

/-- The lines are cut one after another, 48 characters each. -/
theorem linesOf_eq (k : Nat) (text : List Byte) :
    linesOf k text = (List.range k).map fun i => ((text.drop (48 * i)).take 48).map (keepChar 0x7F#8) := by
  induction k generalizing text with
  | zero => rfl
  | succ k ih =>
    rw [linesOf, ih, List.range_succ_eq_map, List.map_cons, List.map_map]
    refine congrArg _ (List.map_congr_left fun i _ => ?_)
    rw [List.drop_drop, Function.comp_apply, Nat.mul_succ, Nat.add_comm]

/-- A number below the bound is read as itself. -/
theorem toFin_val {n v : Nat} {i : Fin n} (h : i.val = v) : toFin n v = some i := by
  subst h
  exact toFin_of_lt i.isLt

section
variable {message level duration lineCount : Nat} {text : List Byte} {s : State}

theorem postMessage_of_bad (bad : 7 < message ∨ 7 < level ∨ lineCount = 0 ∨ 4 < lineCount) :
    postMessage message level duration lineCount text s = .refused .badValue s := by
  unfold postMessage
  split
  · rename_i m k hm hk
    refine if_neg fun lines => ?_
    rcases bad with high | high | bad
    · exact nomatch (toFin_of_le (n := 8) high).symm.trans hm
    · exact nomatch (toFin_of_le (n := 8) high).symm.trans hk
    · omega
  · rfl
  · rfl

theorem postMessage_of_good {m : Fin 8} {k : Level} (hm : m.val = message) (hk : k.val = level)
    (least : 1 ≤ lineCount) (most : lineCount ≤ 4) :
    postMessage message level duration lineCount text s =
      .done (postChecked m k (min 600 duration) (linesOf lineCount text) s) := by
  have clamped : clamp 0 600 duration = min 600 duration := Nat.zero_max _
  simp only [postMessage, toFin_val hm, toFin_val hk, clamped]
  exact if_pos ⟨least, most⟩

end

/-! ### The two requests -/

theorem postMessageResult : Claims.PostMessageResult := by
  intro c p s hd l n duration lines
  have cut : linesOf n (l.drop 5) = lines := by
    rw [linesOf_eq]
    simp only [List.drop_drop]
    rfl
  rw [show exec (.postMessage p) s = execPostMessage p s from rfl]
  refine ⟨fun bad => receive_of_refused hd (postMessage_of_bad bad), fun m level hm hk least most => ?_⟩
  have answer := postMessage_of_good (duration := halfAt l 2) (text := l.drop 5) (s := s) hm hk least most
  rw [cut] at answer
  rw [show execPostMessage p s = .next (postChecked m level duration lines s) from receive_of_done hd answer]
  refine ⟨fun empty => ?_, fun old stored => ?_⟩
  · simp only [postChecked, empty]
    rfl
  · simp only [postChecked, stored]
    obtain ⟨_, _, _, state⟩ := old
    cases state <;> rfl

theorem deleteMessage_of_high {message : Nat} {s : State} (high : 7 < message) :
    deleteMessage message s = .refused .badValue s := by
  rw [deleteMessage, toFin_of_le high]

theorem deleteMessage_of_low {message : Nat} {m : Fin 8} {s : State} (hm : m.val = message) :
    deleteMessage message s = .done (deleteStored m s) := by
  rw [deleteMessage, toFin_val hm]

theorem deleteMessageResult : Claims.DeleteMessageResult := by
  intro c p s hd
  rw [show exec (.deleteMessage p) s = execDeleteMessage p s from rfl]
  refine ⟨fun high => receive_of_refused hd (deleteMessage_of_high high), fun m hm => ?_⟩
  rw [execDeleteMessage, receive_of_done hd (deleteMessage_of_low hm)]
  refine ⟨fun empty => ?_, fun old stored => ?_⟩
  · simp only [deleteStored, empty]
  · simp only [deleteStored, stored]
    cases old.state <;> rfl

/-- Settles O45: both requests by the state the message is in. -/
theorem messageRequests : Obligations.MessageRequests := ⟨postMessageResult, deleteMessageResult⟩

end Sys2Proof.Machine
end

section
/-! Feature Setup, End Feature and the dwell: what each checks (R129, R131, R132). -/

namespace Sys2Proof.Machine

/-! ### Feature Setup (R132, R133) -/

/-- The mode a defined code names. -/
theorem featureModeOf_of_le {code : Nat} (h : code ≤ 1) :
    featureModeOf code = some (if code = 0 then .nested else .rotating) := by
  rcases Nat.le_one_iff_eq_zero_or_eq_one.mp h with rfl | rfl <;> rfl

theorem featureModeOf_of_lt {code : Nat} (h : 1 < code) : featureModeOf code = none := by
  rw [featureModeOf, if_neg (by omega), if_neg (by omega)]

/-- The level a defined leader code names, none for off. -/
theorem leaderLevelOf_of_defined {code : Nat} (h : code ≤ 7 ∨ code = 0xFF) :
    leaderLevelOf code = some (if h : code < 8 then some ⟨code, h⟩ else none) := by
  rcases h with low | rfl
  · have level : code < 8 := Nat.lt_succ_of_le low
    rw [leaderLevelOf, if_neg (by omega), toFin_of_lt level, dif_pos level]
    rfl
  · rfl

theorem leaderLevelOf_of_undefined {code : Nat} (h : 7 < code ∧ code ≠ 0xFF) : leaderLevelOf code = none := by
  rw [leaderLevelOf, if_neg h.2, toFin_of_le h.1]
  rfl

/-- A change of mode is refused while a feature is shown or suspended. -/
theorem featureSetup_busy_iff (mode : FeatureMode) (f : FeatureState) :
    (mode ≠ f.mode ∧ (f.shown.isSome ∨ !f.stack.isEmpty)) ↔
      mode ≠ f.mode ∧ (f.shown ≠ none ∨ f.stack ≠ []) := by
  simp [Option.isSome_iff_ne_none]

section
variable {modeCode leaderCode : Nat} {mask : BitVec 8} {dwell : Nat} {s : State}

theorem featureSetup_of_undefined (bad : 1 < modeCode ∨ (7 < leaderCode ∧ leaderCode ≠ 0xFF)) :
    featureSetup modeCode mask leaderCode dwell s = .refused .badValue s := by
  unfold featureSetup
  split
  · rename_i mode leader
    rcases bad with bad | bad
    · exact nomatch (featureModeOf_of_lt bad).symm.trans mode
    · exact nomatch (leaderLevelOf_of_undefined bad).symm.trans leader
  · rfl
  · rfl

theorem featureSetup_of_defined (mode : modeCode ≤ 1) (leader : leaderCode ≤ 7 ∨ leaderCode = 0xFF) :
    featureSetup modeCode mask leaderCode dwell s =
      if (if modeCode = 0 then FeatureMode.nested else .rotating) ≠ s.fc.mode ∧
          (s.fc.shown ≠ none ∨ s.fc.stack ≠ []) then .refused .busyState s
      else .done (selectOrTest (maskLevels s.fc.mask mask (s.withFc
        { s.fc with
          mode := if modeCode = 0 then .nested else .rotating, mask
          leaderLevel := if h : leaderCode < 8 then some ⟨leaderCode, h⟩ else none
          runnerDwell := clamp 1000 30000 dwell }))) := by
  simp only [featureSetup, featureModeOf_of_le mode, leaderLevelOf_of_defined leader, featureSetup_busy_iff]

end

theorem featureSetupResult : Claims.FeatureSetupResult := by
  intro c p s hd l leader mode mask
  rw [show exec (.featureSetup p) s = execFeatureSetup p s from rfl]
  refine ⟨fun bad => receive_of_refused hd (featureSetup_of_undefined bad), fun modes leaders =>
    ⟨fun change features => ?_, fun idle => ?_⟩⟩
  · exact receive_of_refused hd ((featureSetup_of_defined modes leaders).trans (if_pos ⟨change, features⟩))
  · refine receive_of_done hd ((featureSetup_of_defined modes leaders).trans (if_neg ?_))
    rintro ⟨change, features⟩
    rcases idle with same | ⟨shown, stack⟩
    · exact change same
    · exact features.elim (· shown) (· stack)

/-! ### End Feature (R131) -/

theorem endFeature_of_nonSpecific (s : State) :
    endFeature 0xFF s = .done (if s.fc.shown = none then s else endAndSelect false s) := by
  rw [endFeature, if_pos rfl]
  cases s.fc.shown <;> rfl

theorem endFeature_of_undefined {code : Nat} {s : State} (high : 7 < code) (specific : code ≠ 0xFF) :
    endFeature code s = .refused .badValue s := by
  rw [endFeature, if_neg specific, toFin_of_le high]

theorem endFeature_of_level {k : Level} {code : Nat} {s : State} (hk : k.val = code) :
    endFeature code s = endLevel k s := by
  have specific : code ≠ 0xFF := by omega
  rw [endFeature, if_neg specific, toFin_val hk]

theorem shown_any_atLevel_iff {shown : Option Feature} {k : Level} :
    shown.any (Feature.atLevel k) = true ↔ ∃ g ∈ shown, g.level = k := by
  cases shown <;> simp [Feature.atLevel]

theorem stack_any_atLevel_iff {stack : List Feature} {k : Level} :
    stack.any (Feature.atLevel k) = true ↔ ∃ g ∈ stack, g.level = k := by
  simp [Feature.atLevel]

section
variable {k : Level} {s : State}

theorem endLevel_of_shown (shown : ∃ g ∈ s.fc.shown, g.level = k) :
    endLevel k s = .done (endAndSelect false s) := if_pos (shown_any_atLevel_iff.mpr shown)

theorem endLevel_of_suspended (notShown : ∀ g ∈ s.fc.shown, g.level ≠ k)
    (suspended : ∃ g ∈ s.fc.stack, g.level = k) :
    endLevel k s = .done (removeSuspended false (Feature.atLevel k) s) := by
  rw [endLevel, if_neg, if_pos (stack_any_atLevel_iff.mpr suspended)]
  exact fun any => absurd (shown_any_atLevel_iff.mp any) (by simpa using notShown)

theorem endLevel_of_absent (notShown : ∀ g ∈ s.fc.shown, g.level ≠ k)
    (notSuspended : ∀ g ∈ s.fc.stack, g.level ≠ k) : endLevel k s = .refused .notPresent s := by
  rw [endLevel, if_neg, if_neg]
  · exact fun any => absurd (stack_any_atLevel_iff.mp any) (by simpa using notSuspended)
  · exact fun any => absurd (shown_any_atLevel_iff.mp any) (by simpa using notShown)

end

theorem endFeatureResult : Claims.EndFeatureResult := by
  intro c p s hd ended
  rw [show exec (.endFeature p) s = execEndFeature p s from rfl]
  refine ⟨fun code => ?_, fun high specific => receive_of_refused hd (endFeature_of_undefined high specific),
    fun k hk => ⟨fun shown => ?_, fun notShown => ⟨fun suspended => ?_, fun notSuspended => ?_⟩⟩⟩
  · exact receive_of_done hd ((congrArg (endFeature · s) code).trans (endFeature_of_nonSpecific s))
  · exact receive_of_done hd ((endFeature_of_level hk).trans (endLevel_of_shown shown))
  · exact receive_of_done hd ((endFeature_of_level hk).trans (endLevel_of_suspended notShown suspended))
  · exact receive_of_refused hd ((endFeature_of_level hk).trans (endLevel_of_absent notShown notSuspended))

/-! ### The dwell (R129, R130) -/

theorem dwellOver_iff (f : FeatureState) : dwellOver f = true ↔ ∃ g, f.shown = some g ∧ g.dwell = some 0 := by
  cases shown : f.shown <;> simp [dwellOver, shown]

theorem dwellExpiryResult : Claims.DwellExpiryResult := by
  intro s running
  have expiry : exec .dwellExpiry s = .next (if dwellOver s.fc then endAndSelect false s else s) :=
    event_of_running _ running
  rw [expiry]
  refine ⟨fun g shown none => ?_, fun left => ?_⟩
  · rw [if_pos ((dwellOver_iff s.fc).mpr ⟨g, shown, none⟩)]
    rfl
  · rw [if_neg]
    intro ends
    obtain ⟨g, shown, none⟩ := (dwellOver_iff s.fc).mp ends
    exact left g shown none

end Sys2Proof.Machine
end

section
/-! The ending of a feature, of suspended features and of masked levels (R126, R130, R133): what each leaves, features
being finished one after another. -/

namespace Sys2Proof.Machine

/-! ### One feature finished (R130) -/

theorem endedMessage_eq (deleted : Bool) (msg : Message) :
    endedMessage deleted msg =
      if deleted = true ∨ msg.duration ≠ 0 then none else some { msg with state := .waiting } := by
  simp only [endedMessage, Bool.or_eq_true, bne_iff_ne]

/-- A message settled twice is as settled once. -/
theorem bind_endedMessage_bind (deleted : Bool) (x : Option Message) :
    (x.bind (endedMessage deleted)).bind (endedMessage deleted) = x.bind (endedMessage deleted) := by
  cases x with
  | none => rfl
  | some msg =>
    simp only [Option.bind_some, endedMessage_eq]
    split
    · rfl
    · rename_i stays
      exact if_neg stays

theorem finish_eq (deleted : Bool) (f : FeatureState) (g : Feature) :
    f.finish deleted g =
      { f with
        messages := (f.finish deleted g).messages
        rotation :=
          if f.mode = .rotating ∧ g.level ≠ 0 then f.rotation.erase g.level ++ [g.level] else f.rotation } := by
  unfold FeatureState.finish
  split <;> rw [rotate_eq_ite]

theorem finish_messages (deleted : Bool) (f : FeatureState) (g : Feature) (m : Fin 8) :
    (f.finish deleted g).messages[m] =
      if g.ref = .message m then f.messages[m].bind (endedMessage deleted) else f.messages[m] := by
  unfold FeatureState.finish
  split
  · rename_i e ref
    have other : g.ref ≠ .message m := by simp [ref]
    rw [rotate_eq_ite, if_neg other]
  · rename_i n ref
    rw [rotate_eq_ite]
    refine (messages_set f n m _).trans ?_
    rw [ref]
    by_cases same : m = n
    · subst same
      rw [if_pos rfl, if_pos rfl]
    · rw [if_neg same, if_neg fun eq => same (FeatureRef.message.inj eq).symm]

theorem finish_holds (t : RunnerTable) (g : Feature) (i : Slot) :
    (t.finish g).holds[i] = t.holds[i] - if g.slotOf = some i then 1 else 0 := by
  cases ref : g.ref with
  | message m => simp [RunnerTable.finish, Feature.slotOf, ref]
  | runner e =>
    simp only [RunnerTable.finish, Feature.slotOf, ref, RunnerTable.release_holds, Option.some.injEq]
    by_cases same : i = e.slot
    · rw [if_pos same, if_pos same.symm, same]
    · rw [if_neg same, if_neg (Ne.symm same)]
      rfl

theorem finishFeature_ended (deleted : Bool) (g : Feature) (s : State) :
    Claims.Ended deleted g s (finishFeature deleted g s) := by
  have finished := finishFeature_eq deleted g s
  refine ⟨finishFeature_onlyBand deleted g s, by rw [finished]; rfl, ?_, fun e ref => ?_, fun m ref => ?_⟩
  · rw [finishFeature_fc]
    exact finish_eq deleted s.fc g
  · rw [finished]
    refine ⟨?_, by simp only [State.withFc_rt, State.withRt_rt, RunnerTable.finish, ref]⟩
    simp only [State.withFc_fc, FeatureState.finish, ref, rotate_eq_ite]
  · have messages := finish_messages deleted s.fc g
    rw [finished]
    refine ⟨by simp only [State.withFc_rt, State.withRt_rt, RunnerTable.finish, ref], fun n other => ?_,
      fun empty => ?_, fun msg stored => ?_⟩
    · refine (messages n).trans (if_neg ?_)
      rw [ref]
      exact fun same => other (FeatureRef.message.inj same).symm
    · refine (messages m).trans ((if_pos ref).trans ?_)
      rw [empty]
      rfl
    · refine (messages m).trans ((if_pos ref).trans ?_)
      rw [stored]
      exact endedMessage_eq deleted msg

theorem endingOfTheShownFeature : Claims.EndingOfTheShownFeature := by
  refine fun deleted s => ⟨fun idle => ?_, fun g shown => ?_⟩
  · simp only [endShown, idle]
  · simp only [endShown, shown]
    exact finishFeature_ended deleted g _

/-! ### Features finished one after another -/

/-- Features finished one after another, in the order given. -/
def finishAll (deleted : Bool) (l : List Feature) (s : State) : State :=
  l.foldl (fun t g => finishFeature deleted g t) s

/-- The state with another shown feature and another stack. -/
def State.withPlaces (s : State) (shown : Option Feature) (stack : List Feature) : State :=
  s.withFc { s.fc with shown, stack }

/-- Finishing a feature neither reads nor moves what is shown and suspended. -/
theorem finishFeature_withPlaces (deleted : Bool) (g : Feature) (s : State) (shown : Option Feature)
    (stack : List Feature) :
    finishFeature deleted g (s.withPlaces shown stack) = (finishFeature deleted g s).withPlaces shown stack := by
  have finish : (s.withPlaces shown stack).fc.finish deleted g =
      { s.fc.finish deleted g with shown, stack } := by
    unfold FeatureState.finish
    split <;> rw [rotate_eq_ite, rotate_eq_ite] <;> rfl
  rw [finishFeature_eq, finishFeature_eq, finish]
  rfl

theorem finishAll_withPlaces (deleted : Bool) (l : List Feature) (s : State) (shown : Option Feature)
    (stack : List Feature) :
    finishAll deleted l (s.withPlaces shown stack) = (finishAll deleted l s).withPlaces shown stack := by
  induction l generalizing s with
  | nil => rfl
  | cons g l ih => exact (congrArg _ (finishFeature_withPlaces deleted g s shown stack)).trans (ih _)

theorem finishAll_append (deleted : Bool) (l l' : List Feature) (s : State) :
    finishAll deleted (l ++ l') s = finishAll deleted l' (finishAll deleted l s) := List.foldl_append

theorem removeSuspended_eq (deleted : Bool) (gone : Feature → Bool) (s : State) :
    removeSuspended deleted gone s =
      (finishAll deleted (s.fc.stack.filter gone) s).withPlaces s.fc.shown (s.fc.stack.filter fun g => !gone g) :=
  finishAll_withPlaces deleted _ s _ _

theorem removalOfSuspendedFeatures : Claims.RemovalOfSuspendedFeatures := by
  refine fun deleted gone s => ⟨fun none => ?_, fun above below g stack goes stay => ?_⟩
  · have picked : s.fc.stack.filter gone = [] := List.filter_eq_nil_iff.mpr fun g hg => by simp [none g hg]
    have kept : (s.fc.stack.filter fun g => !gone g) = s.fc.stack :=
      List.filter_eq_self.mpr fun g hg => by simp [none g hg]
    rw [removeSuspended_eq, picked, kept]
    rfl
  · have picked : s.fc.stack.filter gone = g :: (above ++ below).filter gone := by
      rw [stack, List.filter_append, List.filter_append, List.filter_cons_of_pos goes]
      simp [List.filter_eq_nil_iff.mpr fun x hx => by simpa using stay x hx]
    have kept : (s.fc.stack.filter fun g => !gone g) = (above ++ below).filter fun g => !gone g := by
      simp [stack, goes]
    refine ⟨finishFeature deleted g (s.withPlaces s.fc.shown (above ++ below)), finishFeature_ended deleted g _, ?_⟩
    rw [finishFeature_withPlaces, removeSuspended_eq, removeSuspended_eq, picked, kept]
    rw [show ((finishFeature deleted g s).withPlaces s.fc.shown (above ++ below)).fc.stack = above ++ below from rfl,
      finishAll_withPlaces]
    rfl

end Sys2Proof.Machine
end

section
/-! The masking of levels (R133): what is ended, in what order, and what the endings together leave. -/

namespace Sys2Proof.Machine

/-! ### What features finished one after another leave -/

theorem finishAll_bi (deleted : Bool) (l : List Feature) (s : State) : (finishAll deleted l s).bi = s.bi := by
  induction l generalizing s with
  | nil => rfl
  | cons g l ih =>
    have one : (finishFeature deleted g s).bi = s.bi := by
      rw [finishFeature_eq]
      rfl
    exact (ih _).trans one

theorem finishAll_holds (deleted : Bool) (l : List Feature) (s : State) (i : Slot) :
    (finishAll deleted l s).rt.holds[i] = s.rt.holds[i] - (l.filterMap Feature.slotOf).count i := by
  induction l generalizing s with
  | nil => rfl
  | cons g l ih =>
    have one : (finishFeature deleted g s).rt.holds[i] = s.rt.holds[i] - if g.slotOf = some i then 1 else 0 := by
      rw [finishFeature_eq]
      exact finish_holds s.rt g i
    refine (ih _).trans ?_
    rw [one, Nat.sub_sub]
    congr 1
    cases slot : g.slotOf with
    | none => rw [List.filterMap_cons_none slot, if_neg (by simp), Nat.zero_add]
    | some j => simp [List.filterMap_cons_some slot, List.count_cons, Nat.add_comm]

theorem finishAll_messages (deleted : Bool) (l : List Feature) (s : State) (m : Fin 8) :
    (finishAll deleted l s).fc.messages[m] =
      if ∃ g ∈ l, g.ref = .message m then s.fc.messages[m].bind (endedMessage deleted) else s.fc.messages[m] := by
  induction l generalizing s with
  | nil => simp [finishAll]
  | cons g l ih =>
    have one := finish_messages deleted s.fc g m
    rw [← finishFeature_fc] at one
    refine (ih _).trans ?_
    rw [one]
    by_cases here : g.ref = .message m
    · simp [here, bind_endedMessage_bind]
    · simp [here]

/-- A rotation order after levels have moved to its end one after another; level 0 is in no rotation (R126). -/
def rotatedBy (levels rotation : List Level) : List Level :=
  levels.foldl (fun r k => if k = 0 then r else r.erase k ++ [k]) rotation

theorem finishAll_fc (deleted : Bool) (l : List Feature) (s : State) :
    (finishAll deleted l s).fc =
      { s.fc with
        messages := (finishAll deleted l s).fc.messages
        rotation :=
          if s.fc.mode = .rotating then rotatedBy (l.map Feature.level) s.fc.rotation else s.fc.rotation } := by
  induction l generalizing s with
  | nil => simp [finishAll, rotatedBy]
  | cons g l ih =>
    have one := finish_eq deleted s.fc g
    rw [← finishFeature_fc] at one
    refine (ih (finishFeature deleted g s)).trans ?_
    rw [one]
    by_cases mode : s.fc.mode = .rotating
    · by_cases zero : g.level = 0 <;> simp [mode, zero, rotatedBy, finishAll]
    · simp [mode, finishAll]

/-! ### Levels that move to the end of the rotation order (R126) -/

/-- A level that moves several times in a row moves once. -/
theorem rotatedBy_same {levels rotation : List Level} {k : Level} (same : ∀ j ∈ levels, j = k)
    (nodup : rotation.Nodup) :
    rotatedBy levels rotation =
      if k ≠ 0 ∧ levels ≠ [] then rotation.erase k ++ [k] else rotation := by
  induction levels generalizing rotation with
  | nil => simp [rotatedBy]
  | cons j levels ih =>
    obtain ⟨rfl, rest⟩ := List.forall_mem_cons.mp same
    by_cases zero : j = 0
    · simpa [rotatedBy, zero] using ih rest nodup
    · have gone : j ∉ rotation.erase j := nodup.not_mem_erase
      have moved : (rotation.erase j ++ [j]).Nodup :=
        List.nodup_append_comm.mp (List.nodup_cons.mpr ⟨gone, nodup.erase j⟩)
      have again : (rotation.erase j ++ [j]).erase j = rotation.erase j := by
        rw [List.erase_append_right _ gone]
        simp
      have more := ih rest moved
      rw [again, ite_self] at more
      simpa [rotatedBy, zero] using more

/-- Of the levels `ks`, those of a feature of `l`, without level 0: what moves when they end (R126). -/
def movedLevels (l : List Feature) (ks : List Level) : List Level :=
  ks.filter fun k => k != 0 && l.any fun g => g.level == k

theorem movedLevels_cons (l : List Feature) (k : Level) (ks : List Level) :
    movedLevels l (k :: ks) =
      if k ≠ 0 ∧ (l.filter (Feature.atLevel k)).map Feature.level ≠ [] then k :: movedLevels l ks
      else movedLevels l ks := by
  simp [movedLevels, List.filter_cons, Feature.atLevel]

theorem rotatedBy_levels (l : List Feature) {ks rotation : List Level} (distinct : ks.Nodup)
    (nodup : rotation.Nodup) :
    rotatedBy ((ks.flatMap fun k => l.filter (Feature.atLevel k)).map Feature.level) rotation =
      (rotation.filter fun k => !(movedLevels l ks).contains k) ++ movedLevels l ks := by
  induction ks generalizing rotation with
  | nil => simp [rotatedBy, movedLevels]
  | cons k ks ih =>
    obtain ⟨fresh, distinct⟩ := List.nodup_cons.mp distinct
    have same : ∀ j ∈ (l.filter (Feature.atLevel k)).map Feature.level, j = k := fun j hj => by
      obtain ⟨g, hg, rfl⟩ := List.mem_map.mp hj
      simpa [Feature.atLevel] using (List.mem_filter.mp hg).2
    rw [List.flatMap_cons, List.map_append, rotatedBy, List.foldl_append, ← rotatedBy, ← rotatedBy,
      rotatedBy_same same nodup, movedLevels_cons]
    split
    · have gone : k ∉ rotation.erase k := nodup.not_mem_erase
      have stays : k ∉ movedLevels l ks := fun moved => fresh (List.mem_of_mem_filter moved)
      rw [ih distinct (List.nodup_append_comm.mp (List.nodup_cons.mpr ⟨gone, nodup.erase k⟩)), List.filter_append,
        nodup.erase_eq_filter, List.filter_filter]
      have both (j : Level) : (!(movedLevels l ks).contains j && j != k) = !(k :: movedLevels l ks).contains j := by
        rw [List.contains_cons, Bool.not_or, Bool.and_comm, bne]
      simp only [both]
      simp [stays]
    · exact ih distinct nodup

/-! ### The levels masked -/

theorem withPlaces_withPlaces (s : State) (shown shown' : Option Feature) (stack stack' : List Feature) :
    (s.withPlaces shown stack).withPlaces shown' stack' = s.withPlaces shown' stack' := rfl

theorem endShown_of_some {deleted : Bool} {g : Feature} {s : State} (shown : s.fc.shown = some g) :
    endShown deleted s = (finishFeature deleted g s).withPlaces none s.fc.stack := by
  simp only [endShown, shown]
  exact finishFeature_withPlaces deleted g s none s.fc.stack

/-- A masked level's features are finished, the shown one first, and leave their places. -/
theorem maskLevel_eq (k : Level) (s : State) :
    maskLevel k s =
      (finishAll false (s.fc.shownAndStack.filter (Feature.atLevel k)) s).withPlaces
        (s.fc.shown.filter fun g => !g.atLevel k) (s.fc.stack.filter fun g => !g.atLevel k) := by
  unfold maskLevel
  cases shown : s.fc.shown with
  | none =>
    rw [if_neg (by simp), removeSuspended_eq, shownAndStack_of_none shown, shown]
    rfl
  | some g =>
    rw [shownAndStack_of_some shown, Option.any_some, Option.filter_some, List.filter_cons]
    by_cases here : g.atLevel k = true
    · rw [if_pos here, if_pos here, here, removeSuspended_eq, endShown_of_some shown, finishAll_withPlaces,
        withPlaces_withPlaces]
      rfl
    · rw [if_neg here, if_neg here, removeSuspended_eq, shown]
      simp [here]

/-- The features of a level are still on the band after another level is masked. -/
theorem filter_atLevel_filter {j k : Level} (l : List Feature) (other : j ≠ k) :
    (l.filter fun g => !g.atLevel k).filter (Feature.atLevel j) = l.filter (Feature.atLevel j) := by
  rw [List.filter_filter]
  refine List.filter_congr fun g _ => ?_
  simp only [Feature.atLevel]
  by_cases here : g.level = j <;> simp [here, other]

theorem shownAndStack_withPlaces_filter (f : FeatureState) (p : Feature → Bool) :
    { f with shown := f.shown.filter p, stack := f.stack.filter p }.shownAndStack = f.shownAndStack.filter p := by
  simp only [FeatureState.shownAndStack, List.filter_append]
  cases f.shown with
  | none => rfl
  | some g => by_cases stays : p g = true <;> simp [stays, Option.filter_some]

/-- Levels masked one after another: their features are finished level by level, and leave their places. -/
theorem foldl_maskLevel_eq {ks : List Level} (distinct : ks.Nodup) (s : State) :
    ks.foldl (fun t k => maskLevel k t) s =
      (finishAll false (ks.flatMap fun k => s.fc.shownAndStack.filter (Feature.atLevel k)) s).withPlaces
        (s.fc.shown.filter fun g => !ks.contains g.level) (s.fc.stack.filter fun g => !ks.contains g.level) := by
  induction ks generalizing s with
  | nil =>
    have all : (s.fc.shown.filter fun g => !([] : List Level).contains g.level) = s.fc.shown := by
      cases s.fc.shown <;> rfl
    rw [all]
    simp
    rfl
  | cons k ks ih =>
    obtain ⟨fresh, distinct⟩ := List.nodup_cons.mp distinct
    have features : (maskLevel k s).fc.shownAndStack = s.fc.shownAndStack.filter fun g => !g.atLevel k := by
      rw [maskLevel_eq]
      exact shownAndStack_withPlaces_filter s.fc _
    have rest : (ks.flatMap fun j => (maskLevel k s).fc.shownAndStack.filter (Feature.atLevel j)) =
        ks.flatMap fun j => s.fc.shownAndStack.filter (Feature.atLevel j) := by
      refine List.flatMap_congr fun j hj => ?_
      rw [features, filter_atLevel_filter _ fun same => fresh (by rwa [← same])]
    rw [List.foldl_cons, ih distinct, rest, maskLevel_eq, finishAll_withPlaces, withPlaces_withPlaces,
      ← finishAll_append, List.flatMap_cons]
    have stays (g : Feature) : (!g.atLevel k && !ks.contains g.level) = !(k :: ks).contains g.level := by
      rw [List.contains_cons, Bool.not_or]
      rfl
    refine congrArg₂ (State.withPlaces _) ?_ ?_
    · exact (Option.filter_filter ..).trans (congrArg (Option.filter · s.fc.shown) (funext stays))
    · exact (List.filter_filter ..).trans (congrArg (List.filter · s.fc.stack) (funext fun g =>
        (Bool.and_comm ..).trans (stays g)))

/-- Level by level, the features of the levels `ks` are all the features of a level among them. -/
theorem features_of_levels_perm (l : List Feature) {ks : List Level} (distinct : ks.Nodup) :
    (ks.flatMap fun k => l.filter (Feature.atLevel k)).Perm (l.filter fun g => ks.contains g.level) := by
  induction ks with
  | nil => simp
  | cons k ks ih =>
    obtain ⟨fresh, distinct⟩ := List.nodup_cons.mp distinct
    have here : (l.filter fun g => (k :: ks).contains g.level).filter (Feature.atLevel k) =
        l.filter (Feature.atLevel k) := by
      rw [List.filter_filter]
      refine List.filter_congr fun g _ => ?_
      by_cases at_ : g.level = k <;> simp [Feature.atLevel, at_]
    have rest : ((l.filter fun g => (k :: ks).contains g.level).filter fun g => !g.atLevel k) =
        l.filter fun g => ks.contains g.level := by
      rw [List.filter_filter]
      refine List.filter_congr fun g _ => ?_
      by_cases at_ : g.level = k <;> simp [Feature.atLevel, at_, fresh]
    have parts := List.filter_append_perm (Feature.atLevel k) (l.filter fun g => (k :: ks).contains g.level)
    rw [here, rest] at parts
    exact ((ih distinct).append_left _).trans parts

theorem newlyMasked_contains (old new : BitVec 8) (k : Level) :
    ((List.finRange 8).filter (newlyMasked old new)).contains k = newlyMasked old new k := by
  rw [Bool.eq_iff_iff, List.contains_iff_mem, List.mem_filter]
  exact and_iff_right (List.mem_finRange k)

/-- The levels that move: those masked that end a feature. -/
theorem movedLevels_newlyMasked (old new : BitVec 8) (l : List Feature) :
    movedLevels l ((List.finRange 8).filter (newlyMasked old new)) =
      (List.finRange 8).filter fun k =>
        k != 0 && (l.filter fun g => newlyMasked old new g.level).any fun g => g.level == k := by
  rw [movedLevels, List.filter_filter]
  refine List.filter_congr fun k _ => ?_
  rw [Bool.eq_iff_iff]
  simp only [Bool.and_eq_true, List.any_eq_true, List.mem_filter, beq_iff_eq]
  constructor
  · rintro ⟨⟨positive, g, hg, rfl⟩, masked⟩
    exact ⟨positive, g, ⟨hg, masked⟩, rfl⟩
  · rintro ⟨positive, g, ⟨hg, masked⟩, rfl⟩
    exact ⟨⟨positive, g, hg, rfl⟩, masked⟩

theorem maskingOfLevels : Claims.MaskingOfLevels := by
  intro old new s nodup t newly ended moved
  have distinct : ((List.finRange 8).filter newly).Nodup := (List.nodup_finRange 8).filter _
  have masked := foldl_maskLevel_eq distinct s
  have perm := features_of_levels_perm s.fc.shownAndStack distinct
  have rotated := rotatedBy_levels s.fc.shownAndStack distinct nodup
  have levels (k : Level) : ((List.finRange 8).filter newly).contains k = newly k := newlyMasked_contains old new k
  have movedEq : movedLevels s.fc.shownAndStack ((List.finRange 8).filter newly) = moved :=
    movedLevels_newlyMasked old new s.fc.shownAndStack
  simp only [levels] at masked perm
  rw [movedEq] at rotated
  generalize ((List.finRange 8).filter newly).flatMap (fun k => s.fc.shownAndStack.filter (Feature.atLevel k)) = all
    at masked perm rotated
  have eq : t = (finishAll false all s).withPlaces (s.fc.shown.filter fun g => !newly g.level)
    (s.fc.stack.filter fun g => !newly g.level) := masked
  refine ⟨maskLevels_onlyBand old new s, ?_, ?_, fun i => ?_, fun m => ?_⟩
  · rw [eq]
    exact finishAll_bi false all s
  · have fc := finishAll_fc false all s
    rw [rotated] at fc
    rw [eq]
    exact congrArg (fun f : FeatureState => { f with
      shown := s.fc.shown.filter fun g => !newly g.level
      stack := s.fc.stack.filter fun g => !newly g.level }) fc
  · rw [eq]
    refine (finishAll_holds false all s i).trans ?_
    rw [(perm.filterMap Feature.slotOf).count_eq]
  · rw [eq]
    refine (finishAll_messages false all s m).trans ?_
    have settled : endedMessage false = fun msg =>
        if msg.duration = 0 then some { msg with state := .waiting } else none := funext fun msg => by
      by_cases held : msg.duration = 0 <;> simp [endedMessage_eq, held]
    rw [settled]
    exact if_congr (exists_congr fun g => and_congr_left' perm.mem_iff) rfl rfl

/-- Settles O46: the three commands by their checks; the shown feature's end and the removals by one feature finished,
the maskings by all features finished level by level. -/
theorem featureEndings : Obligations.FeatureEndings :=
  ⟨featureSetupResult, endFeatureResult, dwellExpiryResult, endingOfTheShownFeature, removalOfSuspendedFeatures,
    maskingOfLevels⟩

end Sys2Proof.Machine
end

section
/-! Arrivals, the buffer rendered again, and the head test, case by case (R141, R143 to R147). -/

namespace Sys2Proof.Machine

/-! ### One buffer written (R139, R141, R149) -/

/-- A buffer replaced and written: its place in the ring stays, so its line takes its cells (R139). -/
theorem writeBuffer_set (j : Nat) (x : Option ListLine) {s : State} (inside : j < s.ls.buffers.length) :
    writeBuffer j (s.withLs { s.ls with buffers := s.ls.buffers.set j x }) =
      (s.withLs { s.ls with buffers := s.ls.buffers.set j x }).writeLines
        (s.bi.bandHeight + (j + s.ls.buffers.length - s.ls.top) % s.ls.buffers.length) [bufferCells x] := by
  simp [writeBuffer, ListState.size, inside]

theorem rerenderBuffer_eq {j : Nat} (line : ListLine) (pass : PassNo) {s : State}
    (inside : j < s.ls.buffers.length) :
    rerenderBuffer j line pass s =
      (s.withLs
        { s.ls with
          buffers := s.ls.buffers.set j
            (some (renderedLine s.rt line.slot line.bib pass line.shownAt)) }).writeLines
        (s.bi.bandHeight + (j + s.ls.buffers.length - s.ls.top) % s.ls.buffers.length)
        [(renderedLine s.rt line.slot line.bib pass line.shownAt).cells] :=
  writeBuffer_set j _ inside

theorem bufferIsRenderedAgain : Claims.BufferIsRenderedAgain := by
  intro i line pass s hi top j cells
  have inside : j < s.ls.buffers.length := Nat.mod_lt _ (Nat.zero_lt_of_lt hi)
  rw [rerenderBuffer_eq line pass inside, listLine_of_bufferAt top hi]
  rfl

/-! ### Arrivals (R144) -/

/-- A slot that no buffer shows is on no line (R139). -/
theorem lineOf_of_unlisted {l : ListState} {i : Slot} (unlisted : ∀ line, some line ∈ l.buffers → line.slot ≠ i) :
    l.lineOf i = none := by
  rcases found : l.lineOf i with - | j
  · rfl
  · obtain ⟨line, shows, same⟩ := lineOf_some found
    exact absurd same (unlisted line (List.mem_of_getElem? shows))

theorem arrive_of_listed {slot : Slot} {j : Nat} {line : ListLine} {s : State} (bib : Nat) (pass : PassNo)
    (tick : Nat) (shows : s.ls.buffers[j]? = some (some line)) (found : s.ls.lineOf slot = some j) :
    arrive slot bib pass tick s = rerenderBuffer j line pass s := by
  simp only [arrive, found, buffers_getD, shows, Option.join_some]

section
variable {slot : Slot} {s : State} {head : QueueEntry} {rest : List QueueEntry} (bib : Nat) (pass : PassNo)
  (tick : Nat)

theorem arrive_of_queued (unlisted : s.ls.lineOf slot = none) (queue : s.ls.queue = head :: rest)
    (queued : ∃ e ∈ s.ls.queue, e.slot = slot) :
    arrive slot bib pass tick s =
      let t := s.withLs
        { s.ls with queue := s.ls.queue.map fun e => if e.slot = slot then { e with pass, tick } else e }
      if head.slot = slot then headTest t else t := by
  have found : (s.ls.queue.any fun e => e.slot == slot) = true := by simpa using queued
  rw [queue] at found
  simp only [arrive, unlisted, queue, found, if_true]

theorem arrive_of_empty (unlisted : s.ls.lineOf slot = none) (queue : s.ls.queue = []) :
    arrive slot bib pass tick s =
      headTest ((s.withLs { s.ls with queue := [{ slot, bib, pass, tick }] }).withRt (s.rt.hold slot)) := by
  simp [arrive, unlisted, queue]

theorem arrive_of_new (unlisted : s.ls.lineOf slot = none) (queue : s.ls.queue = head :: rest)
    (fresh : ∀ e ∈ s.ls.queue, e.slot ≠ slot) :
    arrive slot bib pass tick s =
      if 64 ≤ s.ls.queue.length then
        headTest ((s.withLs
          { s.ls with
            queue := rest ++ [{ slot, bib, pass, tick }], drops := min 65535 (s.ls.drops + 1) }).withRt
          ((s.rt.release head.slot).hold slot))
      else (s.withLs { s.ls with queue := s.ls.queue ++ [{ slot, bib, pass, tick }] }).withRt (s.rt.hold slot) := by
  have absent : (s.ls.queue.any fun e => e.slot == slot) = false := by simpa using fresh
  rw [queue] at absent
  simp only [arrive, unlisted, queue, absent, Bool.false_eq_true, if_false]
  rfl

end

theorem arrivalResult : Claims.ArrivalResult := by
  intro slot bib pass tick s entry moved
  refine ⟨fun j line shows same first => ?_, fun none_shows => ?_⟩
  · exact arrive_of_listed bib pass tick shows (lineOf_of_first shows same first)
  · have unlisted := lineOf_of_unlisted none_shows
    refine ⟨fun head rest queue queued => ?_, arrive_of_empty bib pass tick unlisted,
      fun head rest queue fresh => ⟨fun room => ?_, fun full => ?_⟩⟩
    · exact arrive_of_queued bib pass tick unlisted queue queued
    · exact (arrive_of_new bib pass tick unlisted queue fresh).trans (if_neg (Nat.not_le_of_lt room))
    · exact (arrive_of_new bib pass tick unlisted queue fresh).trans (if_pos full)

/-! ### The head test (R143, R145 to R147) -/

section
variable {s : State} {e : QueueEntry} {rest : List QueueEntry}

theorem headTest_of_empty (queue : s.ls.queue = []) : headTest s = s := by
  simp [headTest, headTestSteps, queue]

/-- One step of the head test, whose run is long enough for the queue that the step leaves (R146). -/
theorem headTest_of_cons (queue : s.ls.queue = e :: rest) :
    headTest s =
      if s.ls.staleEntry s.cmu.clock.value e then headTest (dropHead e rest s)
      else if s.ls.eligible s.cmu.clock.value e && s.ls.bottomReady s.localTime then
        headTest (insertHead e rest s)
      else s := by
  have steps : headTest s = headTestSteps (rest.length + 1) s := by rw [headTest, queue, List.length_cons]
  rw [steps, headTestSteps, queue]
  rfl

theorem staleEntry_iff (l : ListState) (clock : Nat) (e : QueueEntry) :
    l.staleEntry clock e = true ↔ e.tick + l.leadDelay + l.ageLimit < clock := decide_eq_true_iff

theorem eligible_iff (l : ListState) (clock : Nat) (e : QueueEntry) :
    l.eligible clock e = true ↔ e.tick + l.leadDelay ≤ clock := decide_eq_true_iff

theorem bottomReady_iff (l : ListState) (now : Nat) :
    l.bottomReady now = true ↔
      ∀ line, l.buffers[l.bottom]? = some (some line) → line.shownAt + l.minDwell ≤ now := by
  rw [ListState.bottomReady, buffers_getD]
  rcases l.buffers[l.bottom]? with - | - | line <;> simp

theorem headTest_of_stale (queue : s.ls.queue = e :: rest)
    (stale : e.tick + s.ls.leadDelay + s.ls.ageLimit < s.cmu.clock.value) :
    headTest s = headTest (dropHead e rest s) := by
  rw [headTest_of_cons queue, if_pos ((staleEntry_iff ..).mpr stale)]

theorem headTest_of_fresh (queue : s.ls.queue = e :: rest)
    (fresh : s.cmu.clock.value ≤ e.tick + s.ls.leadDelay + s.ls.ageLimit) :
    headTest s =
      if s.ls.eligible s.cmu.clock.value e && s.ls.bottomReady s.localTime then headTest (insertHead e rest s)
      else s := by
  rw [headTest_of_cons queue, if_neg (mt (staleEntry_iff ..).mp (Nat.not_lt_of_le fresh))]

end

/-- The bottom buffer's hold released, by what stands in its place (R145). -/
theorem releaseLine_getD (t : RunnerTable) (l : ListState) (j : Nat) :
    releaseLine t (l.buffers.getD j none) =
      match l.buffers[j]? with
      | some (some old) => t.release old.slot
      | _ => t := by
  rw [buffers_getD]
  rcases l.buffers[j]? with - | - | old <;> rfl

theorem headTestCases : Claims.HeadTestCases := by
  intro s
  refine ⟨headTest_of_empty, ?_⟩
  intro e rest queue clock bottom free line table
  have tableEq : releaseLine s.rt (s.ls.buffers.getD bottom none) = table := releaseLine_getD s.rt s.ls bottom
  have ready : s.ls.bottomReady s.localTime = true ↔ free := bottomReady_iff s.ls s.localTime
  refine ⟨headTest_of_stale queue, fun fresh => ?_⟩
  rw [headTest_of_fresh queue fresh]
  refine ⟨fun eligible isFree => ?_, fun waits => ?_⟩
  · rw [if_pos (Bool.and_eq_true_iff.mpr ⟨(eligible_iff ..).mpr eligible, ready.mpr isFree⟩), ← tableEq]
    rfl
  · refine if_neg fun inserts => ?_
    obtain ⟨eligible, isReady⟩ := Bool.and_eq_true_iff.mp inserts
    exact waits.elim (Nat.not_lt_of_le ((eligible_iff ..).mp eligible)) fun notFree => notFree (ready.mp isReady)

/-- Settles O48: an arrival by where its slot stands, the buffer rendered again by its place in the ring, the head
test by one step of its run. -/
theorem listArrivalsAndInsertions : Obligations.ListArrivalsAndInsertions :=
  ⟨arrivalResult, bufferIsRenderedAgain, headTestCases⟩

end Sys2Proof.Machine
end

section
/-! The list controller's timers and List Timing, and the lines already due expired one after another (R146, R149,
R151). -/

namespace Sys2Proof.Machine

/-! ### Min dwell (R146) -/

theorem exec_minDwellReached_of_running {s : State} (run : s.resetHeld = false) :
    exec .minDwellReached s = .next (if bottomDwelt s then headTest s else s) := event_of_running _ run

theorem minDwellReachedResult : Claims.MinDwellReachedResult := by
  intro s run bottom
  rw [exec_minDwellReached_of_running run, bottomDwelt, buffers_getD, show s.ls.bottom = bottom from rfl]
  rcases s.ls.buffers[bottom]? with - | - | line
  · rfl
  · rfl
  · simp only [Option.join_some, decide_eq_true_eq]

/-! ### One line expired (R149) -/

/-- Whether a buffer is SHOWN and has reached the line expiry, which is not 0 (R149). -/
def ListState.due (l : ListState) (now : Nat) (b : Option ListLine) : Bool :=
  b.any fun line => decide (l.lineExpiry ≠ 0 ∧ line.shownAt + l.lineExpiry ≤ now)

theorem due_some_iff {l : ListState} {now : Nat} {line : ListLine} :
    l.due now (some line) = true ↔ l.lineExpiry ≠ 0 ∧ line.shownAt + l.lineExpiry ≤ now := decide_eq_true_iff

theorem expired_iff {l : ListState} {now j : Nat} :
    l.expired now j = true ↔ ∃ line, l.buffers[j]? = some (some line) ∧ l.due now (some line) = true := by
  rw [expired_eq]
  rcases l.buffers[j]? with - | - | line <;> simp [ListState.due]

/-- An expired buffer is emptied in its place, its hold released and its line written as spaces (R149). -/
theorem emptyBuffer_of_shown {j : Nat} {line : ListLine} {s : State} (shows : s.ls.buffers[j]? = some (some line)) :
    emptyBuffer j s =
      ((s.withRt (s.rt.release line.slot)).withLs { s.ls with buffers := s.ls.buffers.set j none }).writeLines
        (s.bi.bandHeight + (j + s.ls.buffers.length - s.ls.top) % s.ls.buffers.length) [blankLine] := by
  obtain ⟨inside, -⟩ := List.getElem?_eq_some_iff.mp shows
  rw [emptyBuffer, buffers_getD, shows]
  exact writeBuffer_set j none (s := s.withRt (s.rt.release line.slot)) inside

theorem exec_lineExpiry_of_running (j : Fin 12) {s : State} (run : s.resetHeld = false) :
    exec (.lineExpiry j) s = .next
      (if s.ls.expired s.localTime j.val then
        if j.val = s.ls.bottom then headTest (emptyBuffer j.val s) else emptyBuffer j.val s
      else s) := event_of_running _ run

theorem lineExpiryResult : Claims.LineExpiryResult := by
  intro j s run k
  rw [exec_lineExpiry_of_running j run]
  refine ⟨?_, fun early => ?_⟩
  · intro line shows expires reached t
    rw [if_pos (expired_iff.mpr ⟨line, shows, due_some_iff.mpr ⟨expires, reached⟩⟩), emptyBuffer_of_shown shows]
    rfl
  · refine congrArg _ (if_neg fun expired => ?_)
    obtain ⟨line, shows, due⟩ := expired_iff.mp expired
    obtain ⟨expires, reached⟩ := due_some_iff.mp due
    exact (early line shows).elim expires (Nat.not_lt_of_le reached)

/-! ### List Timing (R151) -/

theorem listTimingResult : Claims.ListTimingResult := by
  intro c p s delivered l expiry
  have leadDelay : clamp 0 6000 (halfAt l 6) = min 6000 (halfAt l 6) := Nat.zero_max _
  refine (show exec (.listTiming p) s = execListTiming p s from rfl).trans ?_
  rw [execListTiming, receive_of_done delivered rfl, listTiming, leadDelay]
  rfl

/-! ### Lines expired one after another: the buffers (R149, R151) -/

/-- The buffers after the first `n` have been expired: those that were due among them are EMPTY. -/
def ListState.expiredTo (l : ListState) (now n : Nat) : List (Option ListLine) :=
  l.buffers.mapIdx fun j b => if j < n ∧ l.due now b = true then none else b

theorem expiredTo_getElem? (l : ListState) (now n j : Nat) :
    (l.expiredTo now n)[j]? = l.buffers[j]?.map fun b => if j < n ∧ l.due now b = true then none else b :=
  List.getElem?_mapIdx

theorem expiredTo_zero (l : ListState) (now : Nat) : l.expiredTo now 0 = l.buffers :=
  List.ext_getElem? fun j => by simp [expiredTo_getElem?]

/-- A buffer yet to be looked at is as it was. -/
theorem expiredTo_getElem?_self (l : ListState) (now n : Nat) : (l.expiredTo now n)[n]? = l.buffers[n]? := by
  simp [expiredTo_getElem?]

theorem expiredTo_succ_of_expired {l : ListState} {now n : Nat} (expired : l.expired now n = true) :
    l.expiredTo now (n + 1) = (l.expiredTo now n).set n none := by
  obtain ⟨line, shows, due⟩ := expired_iff.mp expired
  refine List.ext_getElem? fun j => ?_
  rw [List.getElem?_set', expiredTo_getElem?, expiredTo_getElem?]
  rcases Nat.lt_trichotomy j n with below | rfl | above
  · simp [below.ne', below, below.trans (Nat.lt_succ_self n)]
  · simp [shows, due]
  · simp [above.ne, above.not_gt, Nat.not_lt_of_le (Nat.succ_le_of_lt above)]

theorem expiredTo_succ_of_not_expired {l : ListState} {now n : Nat} (kept : ¬ l.expired now n = true) :
    l.expiredTo now (n + 1) = l.expiredTo now n := by
  refine List.ext_getElem? fun j => ?_
  rw [expiredTo_getElem?, expiredTo_getElem?]
  refine Option.map_congr fun b stands => ?_
  refine if_congr ⟨fun ⟨upTo, due⟩ => ⟨?_, due⟩, fun ⟨below, due⟩ => ⟨Nat.lt_succ_of_lt below, due⟩⟩ rfl rfl
  refine (Nat.lt_succ_iff_lt_or_eq.mp upTo).resolve_right ?_
  rintro rfl
  rcases b with - | line
  · cases due
  · exact kept (expired_iff.mpr ⟨line, stands, due⟩)

theorem expiredTo_length (l : ListState) (now : Nat) :
    l.expiredTo now l.buffers.length = l.buffers.map fun b => if l.due now b = true then none else b := by
  refine List.ext_getElem? fun j => ?_
  rw [expiredTo_getElem?, List.getElem?_map]
  refine Option.map_congr fun b stands => ?_
  obtain ⟨inside, -⟩ := List.getElem?_eq_some_iff.mp stands
  simp [inside]

/-! ### Lines expired one after another: the frame -/

/-- `t` is `s` with the first `n` buffers expired and nothing else changed but hold counts and the image. -/
def OnlyExpired (n : Nat) (s t : State) : Prop :=
  ∃ holds image,
    t = ((s.withLs { s.ls with buffers := s.ls.expiredTo s.localTime n }).withRt { s.rt with holds }).withBi
      { s.bi with image }

/-- Whether the next buffer is expired does not turn on those before it. -/
theorem OnlyExpired.expired {n : Nat} {s t : State} (h : OnlyExpired n s t) :
    t.ls.expired t.localTime n = s.ls.expired s.localTime n := by
  obtain ⟨holds, image, rfl⟩ := h
  rw [expired_eq, expired_eq, ← expiredTo_getElem?_self s.ls s.localTime n]
  rfl

theorem OnlyExpired.emptyBuffer {n : Nat} {s t : State} (h : OnlyExpired n s t)
    (expired : s.ls.expired s.localTime n = true) : OnlyExpired (n + 1) s (emptyBuffer n t) := by
  refine ⟨(Machine.emptyBuffer n t).rt.holds, (Machine.emptyBuffer n t).bi.image, ?_⟩
  rw [emptyBuffer_frame, expiredTo_succ_of_expired expired]
  obtain ⟨holds, image, rfl⟩ := h
  rfl

theorem OnlyExpired.keep {n : Nat} {s t : State} (h : OnlyExpired n s t)
    (kept : ¬ s.ls.expired s.localTime n = true) : OnlyExpired (n + 1) s t := by
  rwa [OnlyExpired, expiredTo_succ_of_not_expired kept]

theorem expireLines_onlyExpired (n : Nat) (s : State) : OnlyExpired n s (expireLines n s) := by
  induction n with
  | zero =>
    refine ⟨s.rt.holds, s.bi.image, ?_⟩
    rw [expiredTo_zero]
    rfl
  | succ n ih =>
    rw [expireLines, ih.expired]
    split
    · rename_i expired
      exact ih.emptyBuffer expired
    · rename_i kept
      exact ih.keep kept

theorem expireLines_succ_of_not_expired {n : Nat} {s : State} (kept : ¬ s.ls.expired s.localTime n = true) :
    expireLines (n + 1) s = expireLines n s := by
  rw [expireLines, (expireLines_onlyExpired n s).expired, if_neg kept]

/-- One more line expired: its hold is released and its board line is written as spaces (R149). -/
theorem expireLines_succ_of_shown {n : Nat} {s : State} {line : ListLine}
    (shows : s.ls.buffers[n]? = some (some line)) (due : s.ls.due s.localTime (some line) = true) :
    (expireLines (n + 1) s).rt = (expireLines n s).rt.release line.slot ∧
      (expireLines (n + 1) s).bi.image =
        writeRows (s.bi.bandHeight + (n + s.ls.buffers.length - s.ls.top) % s.ls.buffers.length) [blankLine]
          (expireLines n s).bi.image := by
  have frame := expireLines_onlyExpired n s
  rw [expireLines, frame.expired, if_pos (expired_iff.mpr ⟨line, shows, due⟩)]
  obtain ⟨holds, image, eq⟩ := frame
  have still : (expireLines n s).ls.buffers[n]? = some (some line) := by
    rw [eq]
    exact (expiredTo_getElem?_self s.ls s.localTime n).trans shows
  have size : (expireLines n s).ls.buffers.length = s.ls.buffers.length := by
    rw [eq]
    exact List.length_mapIdx
  have top : (expireLines n s).ls.top = s.ls.top := by rw [eq]; rfl
  have band : (expireLines n s).bi.bandHeight = s.bi.bandHeight := by rw [eq]; rfl
  rw [emptyBuffer_of_shown still, size, top, band]
  exact ⟨rfl, rfl⟩

/-- Of each buffer: it is kept, or it is SHOWN and due. -/
theorem not_expired_or_due (s : State) (n : Nat) :
    ¬ s.ls.expired s.localTime n = true ∨
      ∃ line, s.ls.buffers[n]? = some (some line) ∧ s.ls.due s.localTime (some line) = true := by
  rw [← expired_iff]
  exact (Classical.em _).symm

/-! ### Lines expired one after another: the hold counts (R66) -/

/-- The slots that the due buffers among the first `n` show. -/
def ListState.dueSlots (l : ListState) (now n : Nat) : List Slot :=
  ((l.buffers.take n).filter (l.due now)).filterMap fun b => b.map fun line => line.slot

theorem dueSlots_succ (l : ListState) (now n : Nat) :
    l.dueSlots now (n + 1) =
      l.dueSlots now n ++
        ((l.buffers[n]?.toList).filter (l.due now)).filterMap fun b => b.map fun line => line.slot := by
  simp only [ListState.dueSlots, List.take_add_one, List.filter_append, List.filterMap_append]

theorem dueSlots_succ_of_shown {l : ListState} {now n : Nat} {line : ListLine}
    (shows : l.buffers[n]? = some (some line)) (due : l.due now (some line) = true) :
    l.dueSlots now (n + 1) = l.dueSlots now n ++ [line.slot] := by
  simp [dueSlots_succ, shows, due]

theorem dueSlots_succ_of_not_expired {l : ListState} {now n : Nat} (kept : ¬ l.expired now n = true) :
    l.dueSlots now (n + 1) = l.dueSlots now n := by
  rw [dueSlots_succ]
  rcases shows : l.buffers[n]? with - | - | line
  · simp
  · simp [ListState.due]
  · have notDue : ¬ l.due now (some line) = true := fun due => kept (expired_iff.mpr ⟨line, shows, due⟩)
    simp [notDue]

theorem expireLines_holds (n : Nat) (s : State) (i : Slot) :
    (expireLines n s).rt.holds[i] = s.rt.holds[i] - (s.ls.dueSlots s.localTime n).count i := by
  induction n with
  | zero => rfl
  | succ n ih =>
    rcases not_expired_or_due s n with kept | ⟨line, shows, due⟩
    · rw [expireLines_succ_of_not_expired kept, dueSlots_succ_of_not_expired kept, ih]
    · rw [(expireLines_succ_of_shown shows due).1, RunnerTable.release_holds, ih, dueSlots_succ_of_shown shows due,
        List.count_append, List.count_singleton]
      by_cases same : i = line.slot
      · simp [same, Nat.sub_sub]
      · simp [same, Ne.symm same]

/-! ### Lines expired one after another: the board lines (R139, R149) -/

/-- The list line that shows a buffer, by the buffer that it shows (R139). -/
theorem listLine_eq_iff {top size i j : Nat} (ht : top < size) (hi : i < size) (hj : j < size) :
    i = (j + size - top) % size ↔ (top + i) % size = j := by
  constructor
  · rintro rfl
    exact bufferAt_of_listLine ht hj
  · rintro rfl
    exact (listLine_of_bufferAt ht hi).symm

/-- One line written on the board. -/
theorem writeRows_singleton_getElem? {n : Nat} {row : List Cell} {image : List (List Cell)} (inside : n < image.length)
    (m : Nat) : (writeRows n [row] image)[m]? = if m = n then some row else image[m]? := by
  rw [writeRows_getElem? (by rw [List.length_singleton]; omega), List.length_singleton]
  by_cases here : m = n
  · subst here
    simp
  · rw [if_neg (by omega), if_neg here]

section
variable {s : State} (ring : s.ls.top < s.ls.buffers.length)
  (fits : s.bi.image.length = s.bi.bandHeight + s.ls.buffers.length)
include ring fits

theorem expireLines_image_length (n : Nat) : (expireLines n s).bi.image.length = s.bi.image.length := by
  induction n with
  | zero => rfl
  | succ n ih =>
    rcases not_expired_or_due s n with kept | ⟨line, shows, due⟩
    · rw [expireLines_succ_of_not_expired kept, ih]
    · have place := Nat.mod_lt (n + s.ls.buffers.length - s.ls.top) (Nat.zero_lt_of_lt ring)
      rw [(expireLines_succ_of_shown shows due).2, writeRows_length, ih]
      rw [List.length_singleton]
      omega

/-- The board after one more line has expired. -/
theorem expireLines_succ_image_getElem? {n : Nat} {line : ListLine} (shows : s.ls.buffers[n]? = some (some line))
    (due : s.ls.due s.localTime (some line) = true) (m : Nat) :
    (expireLines (n + 1) s).bi.image[m]? =
      if m = s.bi.bandHeight + (n + s.ls.buffers.length - s.ls.top) % s.ls.buffers.length then some blankLine
      else (expireLines n s).bi.image[m]? := by
  have place := Nat.mod_lt (n + s.ls.buffers.length - s.ls.top) (Nat.zero_lt_of_lt ring)
  rw [(expireLines_succ_of_shown shows due).2, writeRows_singleton_getElem?]
  rw [expireLines_image_length ring fits n]
  omega

/-- The band's lines stay (R149). -/
theorem expireLines_image_of_band (n : Nat) {m : Nat} (band : m < s.bi.bandHeight) :
    (expireLines n s).bi.image[m]? = s.bi.image[m]? := by
  induction n with
  | zero => rfl
  | succ n ih =>
    rcases not_expired_or_due s n with kept | ⟨line, shows, due⟩
    · rw [expireLines_succ_of_not_expired kept, ih]
    · rw [expireLines_succ_image_getElem? ring fits shows due, if_neg (by omega), ih]

theorem expireLines_image_of_list (n : Nat) {i : Nat} (inside : i < s.ls.buffers.length) :
    (expireLines n s).bi.image[s.bi.bandHeight + i]? =
      if (s.ls.top + i) % s.ls.buffers.length < n ∧
          s.ls.expired s.localTime ((s.ls.top + i) % s.ls.buffers.length) = true then some blankLine
      else s.bi.image[s.bi.bandHeight + i]? := by
  induction n with
  | zero => rw [if_neg (fun both => Nat.not_lt_zero _ both.1)]; rfl
  | succ n ih =>
    rcases not_expired_or_due s n with kept | ⟨line, shows, due⟩
    · rw [expireLines_succ_of_not_expired kept, ih]
      refine if_congr (and_congr_left fun expired => ?_) rfl rfl
      have other : (s.ls.top + i) % s.ls.buffers.length ≠ n := fun same => kept (same ▸ expired)
      omega
    · obtain ⟨hn, -⟩ := List.getElem?_eq_some_iff.mp shows
      have here : s.bi.bandHeight + i = s.bi.bandHeight + _ ↔ _ :=
        Nat.add_left_cancel_iff.trans (listLine_eq_iff ring inside hn)
      have expired : s.ls.expired s.localTime n = true := expired_iff.mpr ⟨line, shows, due⟩
      rw [expireLines_succ_image_getElem? ring fits shows due, ih]
      by_cases same : (s.ls.top + i) % s.ls.buffers.length = n
      · rw [if_pos (here.mpr same), same, if_pos ⟨Nat.lt_succ_self n, expired⟩]
      · rw [if_neg (mt here.mp same)]
        refine if_congr (and_congr_left fun _ => ?_) rfl rfl
        omega

end

theorem linesAlreadyDueExpire : Claims.LinesAlreadyDueExpire := by
  intro s k t due
  have dueEq : s.ls.due s.localTime = due := funext fun b => by
    rcases b with - | line
    · rfl
    · exact Bool.eq_iff_iff.mpr (due_some_iff.trans (by simp [due]))
  refine ⟨?_, fun i => ?_, fun ring fits => ⟨expireLines_image_length ring fits k,
    fun n band => expireLines_image_of_band ring fits k band, fun i inside b stands => ?_⟩⟩
  · obtain ⟨holds, image, eq⟩ := expireLines_onlyExpired k s
    rw [expiredTo_length, dueEq] at eq
    rw [show t = _ from eq]
    rfl
  · rw [expireLines_holds, ListState.dueSlots, List.take_length, dueEq]
  · have place : (s.ls.top + i) % k < k := Nat.mod_lt _ (Nat.zero_lt_of_lt ring)
    have expired : s.ls.expired s.localTime ((s.ls.top + i) % k) = due b := by
      rw [expired_eq, stands, ← dueEq]
      rfl
    rw [show t.bi.image[s.bi.bandHeight + i]? = _ from expireLines_image_of_list ring fits k inside, expired]
    exact if_congr (and_iff_right place) rfl rfl

/-- Settles O49: the two timers and List Timing by their checks, the lines already due by the buffers expired one
after another. -/
theorem listTimers : Obligations.ListTimers :=
  ⟨minDwellReachedResult, lineExpiryResult, listTimingResult, linesAlreadyDueExpire⟩

end Sys2Proof.Machine
end

section
/-! Board Layout (R119, R152, R156, R157, R162): its checks, the list emptied for a new layout, and the board after it
but for its image. -/

namespace Sys2Proof.Machine

/-! ### The list emptied (R66, R152) -/

theorem releaseLine_holds (t : RunnerTable) (b : Option ListLine) (i : Slot) :
    (releaseLine t b).holds[i] = t.holds[i] - (b.map fun line => line.slot).toList.count i := by
  rcases b with - | line
  · rfl
  · rw [releaseLine, RunnerTable.release_holds]
    by_cases same : i = line.slot
    · simp [same]
    · simp [same, Ne.symm same]

theorem foldl_releaseLine_holds (l : List (Option ListLine)) (t : RunnerTable) (i : Slot) :
    (l.foldl releaseLine t).holds[i] =
      t.holds[i] - (l.filterMap fun b => b.map fun line => line.slot).count i := by
  induction l generalizing t with
  | nil => rfl
  | cons b l ih =>
    rw [List.foldl_cons, ih, releaseLine_holds, Nat.sub_sub, ← List.count_append]
    rcases b with - | line <;> rfl

theorem layoutEmptiesTheList : Claims.LayoutEmptiesTheList := by
  intro k s t
  refine ⟨?_, fun i => foldl_releaseLine_holds s.ls.buffers s.rt i⟩
  exact congrArg (fun rt => (s.withRt rt).withLs { s.ls with buffers := List.replicate k none, top := 0 })
    (foldl_releaseLine_eq s.ls.buffers s.rt)

/-! ### The checks (R156) -/

section
variable {n b wave : Nat} {s : State}

theorem boardLayout_of_badValue (bad : n = 0 ∨ 12 < n ∨ 4 < b ∨ n ≤ b ∨ 7 < wave) :
    boardLayout n b wave s = .refused .badValue s := by
  by_cases sizes : 1 ≤ n ∧ n ≤ 12 ∧ b ≤ 4 ∧ b < n
  · have wide : 8 ≤ wave := by omega
    rw [boardLayout, if_pos sizes, toFin_of_le wide]
  · rw [boardLayout, if_neg sizes]

theorem boardLayout_of_ok {w : Wave} (known : w.val = wave) (lines : 1 ≤ n ∧ n ≤ 12) (height : b ≤ 4 ∧ b < n) :
    boardLayout n b wave s =
      if n = s.bi.lineCount ∧ b = s.bi.bandHeight ∧ w = s.bi.clockWave then .done s
      else .done (layoutChecked n b w s) := by
  obtain ⟨some_, most⟩ := lines
  obtain ⟨low, below⟩ := height
  rw [boardLayout, if_pos ⟨some_, most, low, below⟩, toFin_val known]

end

/-! ### The board after a new layout (R119, R157) -/

/-- The new layout stands, and nothing of the board but the image has changed besides. -/
def LaidOut (n b : Nat) (w : Wave) (old new : BoardState) : Prop :=
  new = { old with lineCount := n, bandHeight := b, clockWave := w, image := new.image }

theorem LaidOut.congr {n b : Nat} {w : Wave} {old mid new : BoardState} (h : LaidOut n b w old mid)
    (same : new = { mid with image := new.image }) : LaidOut n b w old new := by
  rw [LaidOut, same, show mid = _ from h]

theorem LaidOut.windows {n b : Nat} {w : Wave} {old new : BoardState} (h : LaidOut n b w old new) :
    new.windows = old.windows ∧ new.unusable = old.unusable := by
  rw [show new = _ from h]
  exact ⟨rfl, rfl⟩

theorem listLaidOut_laidOut (n b : Nat) (w : Wave) (s : State) : LaidOut n b w s.bi (listLaidOut n b w s).bi := by
  have stored : LaidOut n b w s.bi (withLayout n b w s).bi  := rfl
  unfold listLaidOut
  split
  · have emptied : LaidOut n b w s.bi (writeList (emptyList (n - b) (withLayout n b w s))).bi  := rfl
    exact emptied.congr (congrArg State.bi (headTest_onlyList _))
  · exact stored

theorem bandLaidOut_laidOut (n b : Nat) (w : Wave) (s : State) : LaidOut n b w s.bi (bandLaidOut n b w s).bi :=
  (listLaidOut_laidOut n b w s).congr (congrArg State.bi (layoutBand_onlyBand ..))

/-- What the band does, by the height and clock wave before and after (R119, R157). -/
theorem bandLaidOut_eq (n b : Nat) (w : Wave) (s : State) :
    bandLaidOut n b w s =
      let t := listLaidOut n b w s
      if b = 0 then endShown false t
      else if s.bi.bandHeight = 0 then selectFeature t
      else if b ≠ s.bi.bandHeight then renderBand t
      else if w ≠ s.bi.clockWave then renderIdleClock t
      else t := by
  have height : (listLaidOut n b w s).bi.bandHeight = b := congrArg BoardState.bandHeight (listLaidOut_laidOut ..)
  have wave : (listLaidOut n b w s).bi.clockWave = w := congrArg BoardState.clockWave (listLaidOut_laidOut ..)
  simp only [bandLaidOut, layoutBand, height, wave, ne_comm (a := s.bi.bandHeight), ne_comm (a := s.bi.clockWave)]

/-! ### The windows after a new layout (R157, R162) -/

theorem windowBeyond_iff (n : Nat) (x : Option Window) :
    windowBeyond n x = true ↔ ∃ v ∈ x, n ≤ v.lastLine := by
  rcases x with - | v <;> simp [windowBeyond]

section
variable {n : Nat} {b : BoardState} {i : Fin 6}

theorem dropWindows_windows :
    (dropWindows n b).windows[i] = if windowBeyond n b.windows[i] then none else b.windows[i] :=
  Vector.getElem_map ..

theorem dropWindows_unusable :
    (dropWindows n b).unusable[i] = (b.unusable[i] || windowBeyond n b.windows[i]) := Vector.getElem_ofFn ..

theorem dropWindows_of_beyond (beyond : windowBeyond n b.windows[i] = true) :
    (dropWindows n b).windows[i] = none ∧ (dropWindows n b).unusable[i] = true := by
  rw [dropWindows_windows, dropWindows_unusable, beyond]
  exact ⟨rfl, Bool.or_true _⟩

theorem dropWindows_of_within (within : ¬ windowBeyond n b.windows[i] = true) :
    (dropWindows n b).windows[i] = b.windows[i] ∧ (dropWindows n b).unusable[i] = b.unusable[i] := by
  rw [dropWindows_windows, dropWindows_unusable, Bool.eq_false_of_not_eq_true within]
  exact ⟨rfl, Bool.or_false _⟩

end

theorem boardLayoutResult : Claims.BoardLayoutResult := by
  intro c p s hd l n b
  rw [show exec (.boardLayout p) s = execBoardLayout p s from rfl]
  refine ⟨fun bad => receive_of_refused hd (boardLayout_of_badValue bad), ?_⟩
  intro w known some_ most low below old sized listed banded lost
  have checked := boardLayout_of_ok (s := s) known ⟨some_, most⟩ ⟨low, below⟩
  refine ⟨fun lines height wave => ?_, fun differs => ?_⟩
  · exact receive_of_done hd (checked.trans (if_pos ⟨lines, height, wave⟩))
  · have bandedEq : bandLaidOut n b w s = banded := bandLaidOut_eq n b w s
    have board : LaidOut n b w old banded.bi := bandedEq ▸ bandLaidOut_laidOut n b w s
    obtain ⟨windows, unusable⟩ := board.windows
    refine ⟨(dropWindows n banded.bi).windows, (dropWindows n banded.bi).unusable, ?_, fun i => ?_⟩
    · refine receive_of_done hd (checked.trans ((if_neg differs).trans ?_))
      rw [layoutChecked_eq, bandedEq]
      rfl
    · have isLost : windowBeyond n banded.bi.windows[i] = true ↔ lost i := by
        rw [windows]
        exact windowBeyond_iff n _
      refine ⟨fun h => dropWindows_of_beyond (isLost.mpr h), fun h => ?_⟩
      rw [← windows, ← unusable]
      exact dropWindows_of_within (mt isLost.mp h)

/-- Settles O53: Board Layout by its checks, by its equality with the layout in force, and by the frame of list and
band, which leave the windows to the last step; the list emptied by one release for each SHOWN buffer. -/
theorem boardLayoutRequests : Obligations.BoardLayoutRequests := ⟨boardLayoutResult, layoutEmptiesTheList⟩

end Sys2Proof.Machine
end

section
/-! The display settings and the panel windows: what each request checks, clamps and stores (R158 to R163). -/

namespace Sys2Proof.Machine

/-! ### Display Mode, Brightness and Scan Period (R158, R159, R163) -/

theorem displayModeResult {c : Channel} {p : Packet} {s : State} (hd : Delivered .displayMode c p s) :
    exec (.displayMode p) s = .next
      (match paramOf p with
       | 0 => s.withBi { s.bi with display := .normal }
       | 1 => s.withBi { s.bi with display := .blank }
       | 2 => s.withBi { s.bi with display := .test }
       | 3 => s.withBi { s.bi with display := .inverse }
       | _ => s.refuse c 0x18#8 .badValue) := by
  have ran : exec (.displayMode p) s = _ := receive_delivered (fun _ s => displayMode (paramOf p) s) hd
  rw [ran]
  rcases paramOf p with - | - | - | - | n <;> rfl

theorem brightnessOf_val (n : Nat) : (brightnessOf n).val = min 15 n := by
  rcases Nat.lt_or_ge n 16 with below | above
  · rw [brightnessOf, toFin_of_lt below, Option.getD_some]
    exact (Nat.min_eq_right (Nat.le_of_lt_succ below)).symm
  · rw [brightnessOf, toFin_of_le above, Option.getD_none]
    exact (Nat.min_eq_left (Nat.le_of_succ_le above)).symm

theorem brightnessResult {c : Channel} {p : Packet} {s : State} (hd : Delivered .brightness c p s) :
    ∃ level : Fin 16, level.val = min 15 (paramOf p) ∧
      exec (.brightness p) s = .next (s.withBi { s.bi with brightness := level }) := by
  rw [show exec (.brightness p) s = execBrightness p s from rfl]
  exact ⟨brightnessOf (paramOf p), brightnessOf_val _, receive_of_done hd rfl⟩

theorem scanPeriodResult {c : Channel} {p : Packet} {s : State} (hd : Delivered .scanPeriod c p s) :
    exec (.scanPeriod p) s = .next (s.withBi { s.bi with scanPeriod := max 50 (min 1000 (paramOf p)) }) := by
  rw [show exec (.scanPeriod p) s = execScanPeriod p s from rfl]
  exact receive_of_done hd rfl

/-! ### Duty Table (R160) -/

theorem nonDecreasing_iff_isChain (l : List Byte) : nonDecreasing l = true ↔ l.IsChain (· ≤ ·) := by
  induction l with
  | nil => simp [nonDecreasing]
  | cons a l ih =>
    cases l with
    | nil => simp [nonDecreasing]
    | cons b rest => rw [nonDecreasing, Bool.and_eq_true, decide_eq_true_iff, ih, List.isChain_cons_cons]

theorem dutyEntries_toNat (l : List Byte) {i : Nat} (hi : i < 16) : (dutyEntries l)[i].toNat = byteAt l i := by
  rw [dutyEntries, Vector.getElem_ofFn]
  rfl

/-- No entry of a duty payload is below the one before it (R160). -/
theorem nonDecreasing_dutyEntries_iff (l : List Byte) :
    nonDecreasing (dutyEntries l).toList = true ↔ ∀ i < 15, byteAt l i ≤ byteAt l (i + 1) := by
  rw [nonDecreasing_iff_isChain, List.isChain_iff_getElem]
  simp only [Vector.length_toList, Vector.getElem_toList, BitVec.le_def]
  refine forall_congr' fun i => ⟨fun h hi => ?_, fun h hi => ?_⟩
  · simpa only [dutyEntries_toNat] using h (by omega)
  · simpa only [dutyEntries_toNat] using h (by omega)

/-- The two conditions of R160 on a duty payload. -/
theorem dutyChecks_iff (l : List Byte) :
    nonDecreasing (dutyEntries l).toList = true ∧ (dutyEntries l)[0] < (dutyEntries l)[15] ↔
      (∀ i < 15, byteAt l i ≤ byteAt l (i + 1)) ∧ byteAt l 0 < byteAt l 15 := by
  rw [nonDecreasing_dutyEntries_iff, BitVec.lt_def, dutyEntries_toNat _ (by decide), dutyEntries_toNat _ (by decide)]

theorem dutyTableResult {c : Channel} {p : Packet} {s : State} (hd : Delivered .dutyTable c p s) :
    let entry (i : Nat) : Nat := byteAt (payloadOf p) i
    let ok : Prop := (∀ i < 15, entry i ≤ entry (i + 1)) ∧ entry 0 < entry 15
    (¬ ok → exec (.dutyTable p) s = .next (s.refuse c 0x1A#8 .badValue)) ∧
    (ok → ∃ duty : Vector Byte 16, (∀ i : Fin 16, duty[i].toNat = entry i.val) ∧
      exec (.dutyTable p) s = .next (s.withBi { s.bi with duty })) := by
  intro entry ok
  rw [show exec (.dutyTable p) s = execDutyTable p s from rfl]
  have checks := dutyChecks_iff (payloadOf p)
  refine ⟨fun bad => receive_of_refused hd (if_neg (mt checks.mp bad)), fun good => ?_⟩
  exact ⟨dutyEntries (payloadOf p), fun i => dutyEntries_toNat _ i.isLt,
    receive_of_done hd (if_pos (checks.mpr good))⟩

theorem displaySettingsResult : Claims.DisplaySettingsResult := fun _ _ _ =>
  ⟨displayModeResult, brightnessResult, dutyTableResult, scanPeriodResult⟩

/-! ### Panel Window (R161, R162) -/

/-- The checks of R161 on a definition, 2 to 6. -/
theorem windowOk_eq_false_iff (n : Nat) (w : Window) :
    windowOk n w = false ↔
      5 < w.address ∨ w.lastLine < w.firstLine ∨ n ≤ w.lastLine ∨ w.lastCell < w.firstCell ∨ 47 < w.lastCell := by
  simp only [windowOk, Bool.and_eq_false_iff, decide_eq_false_iff_not, Nat.not_le, Nat.not_lt, or_assoc]

section
variable {number : Nat} {definition : Option Window} {s : State}

theorem panelWindow_of_number (unknown : 5 < number) : panelWindow number definition s = .refused .badValue s := by
  rw [panelWindow, toFin_of_le unknown]

theorem panelWindow_of_bad (bad : definition.all (windowOk s.bi.lineCount) = false) :
    panelWindow number definition s = .refused .badValue s := by
  rw [panelWindow, bad]
  rcases toFin 6 number with - | i <;> rfl

theorem panelWindow_of_ok {i : Fin 6} (known : i.val = number)
    (good : definition.all (windowOk s.bi.lineCount) = true) :
    panelWindow number definition s = .done (s.withBi (setWindow i definition s.bi)) := by
  rw [panelWindow, toFin_val known, good]
  rfl

end

theorem panelWindowResult : Claims.PanelWindowResult := by
  intro c p s hd l w bad put
  rw [show exec (.panelWindow p) s = execPanelWindow p s from rfl]
  have checks : windowOk s.bi.lineCount w = false ↔ bad := windowOk_eq_false_iff _ _
  have unused (code : byteAt l 1 = 0xFF) : windowFields l = none := if_pos code
  have used (code : byteAt l 1 ≠ 0xFF) : windowFields l = some w := if_neg code
  refine ⟨fun wrong => receive_of_refused hd ?_, fun i known => ⟨fun code => ?_, fun code good => ?_⟩⟩
  · rcases wrong with unknown | ⟨code, isBad⟩
    · exact panelWindow_of_number unknown
    · exact panelWindow_of_bad ((congrArg _ (used code)).trans (checks.mpr isBad))
  · exact receive_of_done hd (unused code ▸ panelWindow_of_ok known (unused code ▸ rfl))
  · have fits : windowOk s.bi.lineCount w = true := Bool.not_eq_false _ ▸ mt checks.mp good
    exact receive_of_done hd (used code ▸ panelWindow_of_ok known (used code ▸ fits))

/-- Settles O54: each setting by its clamp or its codes, the duty table by its entries as numbers, the window by its
number, its code for unused and its checks. -/
theorem displayRequests : Obligations.DisplayRequests := ⟨displaySettingsResult, panelWindowResult⟩

end Sys2Proof.Machine
end

section
/-! The panel scan (R158, R159, R163, R164, 11.6): which window's frame is built next, and the bytes of a frame. -/

namespace Sys2Proof.Machine

/-! ### The next defined window (R163, R164) -/

/-- The first number that gives something, with none before it giving any, is what a search through all finds. -/
theorem findSome?_finRange_of_first {n : Nat} {α : Type} {f : Fin n → Option α} {i : Fin n} {a : α}
    (here : f i = some a) (before : ∀ j < i, f j = none) : (List.finRange n).findSome? f = some a := by
  have split : List.finRange n = (List.finRange n).take i.val ++ i :: (List.finRange n).drop (i.val + 1) := by
    have := List.take_append_drop i.val (List.finRange n)
    rwa [List.drop_eq_getElem_cons (by simp), List.getElem_finRange, Fin.cast_mk, eq_comm] at this
  refine List.findSome?_eq_some_iff.mpr ⟨_, i, _, split, here, fun j mem => before j ?_⟩
  obtain ⟨m, hm, rfl⟩ := List.mem_take_iff_getElem.mp mem
  rw [Fin.lt_def, List.getElem_finRange]
  simp only [List.length_finRange] at hm
  exact (Nat.lt_min.mp hm).1

/-- The first defined window from number `start` on, with its definition (R163, R164). -/
def nextWindow (start : Nat) (windows : Vector (Option Window) 6) : Option (Fin 6 × Window) :=
  (List.finRange 6).findSome? fun i => if start ≤ i.val then windows[i].map fun w => (i, w) else none

/-- The frame built is the next window's, and without a next window none is. -/
theorem buildFrom_eq_nextWindow (start : Nat) (b : BoardState) :
    buildFrom start b =
      { b with
        sending := (nextWindow start b.windows).map fun x => { window := x.1, bytes := frameBytes b x.2 } } := by
  rw [buildFrom, ← nextWindow]
  rcases nextWindow start b.windows with - | ⟨i, w⟩ <;> rfl

section
variable {start : Nat} {windows : Vector (Option Window) 6}

theorem nextWindow_of_first {i : Fin 6} {w : Window} (from_ : start ≤ i.val) (defined : windows[i] = some w)
    (first : ∀ j : Fin 6, start ≤ j.val → j < i → windows[j] = none) : nextWindow start windows = some (i, w) := by
  refine findSome?_finRange_of_first (by rw [if_pos from_, defined]; rfl) fun j before => ?_
  split
  · rename_i within
    rw [first j within before]
    rfl
  · rfl

theorem nextWindow_of_none (undefined : ∀ i : Fin 6, start ≤ i.val → windows[i] = none) :
    nextWindow start windows = none := by
  refine List.findSome?_eq_none_iff.mpr fun i _ => ?_
  split
  · rename_i within
    rw [undefined i within]
    rfl
  · rfl

end

/-! ### The two events of the scan (R163, R164) -/

theorem scanDue_iff (now : Nat) (b : BoardState) :
    scanDue now b = true ↔ b.sending = none ∧ b.scanFrom + b.scanPeriod ≤ now := by
  simp [scanDue]

theorem exec_scanStart_of_due {s : State} (run : s.resetHeld = false) (idle : s.bi.sending = none)
    (passed : s.bi.scanFrom + s.bi.scanPeriod ≤ s.localTime) :
    exec .scanStart s = .next (s.withBi (buildFrom 0 { s.bi with scanFrom := s.localTime })) :=
  (event_of_running _ run).trans (congrArg _ (if_pos ((scanDue_iff _ _).mpr ⟨idle, passed⟩)))

theorem exec_scanStart_of_not_due {s : State} (run : s.resetHeld = false)
    (early : s.bi.sending ≠ none ∨ s.localTime < s.bi.scanFrom + s.bi.scanPeriod) :
    exec .scanStart s = .next s := by
  refine (event_of_running _ run).trans (congrArg _ (if_neg fun due => ?_))
  obtain ⟨idle, passed⟩ := (scanDue_iff _ _).mp due
  exact early.elim (fun sending => sending idle) (Nat.not_lt_of_le passed)

theorem exec_frameSent_of_sending {s : State} {f : Sending} (run : s.resetHeld = false)
    (sending : s.bi.sending = some f) :
    exec .frameSent s = .next (s.withBi (buildFrom (f.window.val + 1) s.bi)) := by
  rw [show exec .frameSent s = execFrameSent s from rfl]
  simp only [execFrameSent, event_of_running _ run, sending]

theorem exec_frameSent_of_idle {s : State} (run : s.resetHeld = false) (idle : s.bi.sending = none) :
    exec .frameSent s = .next s := by
  rw [show exec .frameSent s = execFrameSent s from rfl]
  simp only [execFrameSent, event_of_running _ run, idle]

theorem scanStartAndFrameSent : Claims.ScanStartAndFrameSent := by
  intro e start base s run
  refine ⟨fun moves => ?_, exec_scanStart_of_not_due run, exec_frameSent_of_idle run⟩
  have built : exec e s = .next (s.withBi (buildFrom start base)) ∧ base.windows = s.bi.windows := by
    rcases moves with ⟨rfl, idle, passed, rfl, rfl⟩ | ⟨f, rfl, sending, rfl, rfl⟩
    · exact ⟨exec_scanStart_of_due run idle passed, rfl⟩
    · exact ⟨exec_frameSent_of_sending run sending, rfl⟩
  obtain ⟨built, windows⟩ := built
  rw [built, buildFrom_eq_nextWindow, windows]
  refine ⟨fun i w from_ defined first => ?_, fun undefined => ?_⟩
  · rw [nextWindow_of_first from_ defined first]
    rfl
  · rw [nextWindow_of_none undefined]
    rfl

/-! ### The cells of a window (R164) -/

/-- A stretch of a list, item by item. -/
theorem take_drop_eq_map_range {α : Type} {l : List α} {first n : Nat} (within : first + n ≤ l.length) (d : α) :
    (l.drop first).take n = (List.range n).map fun i => (l[first + i]?).getD d := by
  refine List.ext_getElem (by simp; omega) fun i hi _ => ?_
  have inside : first + i < l.length := by
    simp only [List.length_take, List.length_drop] at hi
    omega
  simp [List.getElem?_eq_getElem inside]

/-- The items of a range of numbers, from the last to the first. -/
theorem reverse_range_eq_map (n : Nat) : (List.range n).reverse = (List.range n).map fun i => n - 1 - i := by
  rw [List.range_eq_range', List.reverse_range', ← List.range_eq_range']
  simp

/-- The cell at a place of the board, blank beyond it (R155). -/
def cellAt (image : List (List Cell)) (line cell : Nat) : Cell :=
  (((image[line]?).getD [])[cell]?).getD Cell.blank

section
variable {image : List (List Cell)} {w : Window} (lines : w.firstLine ≤ w.lastLine)
  (board : w.lastLine < image.length) (cells : w.firstCell ≤ w.lastCell) (last : w.lastCell ≤ 47)
  (rows : ∀ row ∈ image, row.length = 48)
include lines board cells last rows

/-- The window's cells read from its first line and cell. -/
theorem uprightCells_eq :
    (((image.drop w.firstLine).take (w.lastLine + 1 - w.firstLine)).flatMap fun row =>
        (row.drop w.firstCell).take (w.lastCell + 1 - w.firstCell)) =
      (List.range (w.lastLine + 1 - w.firstLine)).flatMap fun i =>
        (List.range (w.lastCell + 1 - w.firstCell)).map fun j =>
          cellAt image (w.firstLine + i) (w.firstCell + j) := by
  rw [take_drop_eq_map_range (d := []) (by omega), List.flatMap_map]
  refine List.flatMap_congr fun i hi => ?_
  have inside : w.firstLine + i < image.length := by
    have := List.mem_range.mp hi
    omega
  have width : ((image[w.firstLine + i]?).getD []).length = 48 := by
    rw [List.getElem?_eq_getElem inside]
    exact rows _ (List.getElem_mem inside)
  exact take_drop_eq_map_range (by omega) Cell.blank

/-- The window's cells line by line, from the first or, turned, from the last. -/
theorem windowCells_eq :
    windowCells image w =
      (List.range (w.lastLine + 1 - w.firstLine)).flatMap fun i =>
        (List.range (w.lastCell + 1 - w.firstCell)).map fun j =>
          if w.turned then cellAt image (w.lastLine - i) (w.lastCell - j)
          else cellAt image (w.firstLine + i) (w.firstCell + j) := by
  rw [windowCells, uprightCells_eq lines board cells last rows]
  rcases w.turned with - | -
  · rfl
  · simp only [if_true, List.reverse_flatMap, reverse_range_eq_map, List.flatMap_map, Function.comp_apply,
      ← List.map_reverse, List.map_map]
    refine List.flatMap_congr fun i hi => List.map_congr_left fun j hj => ?_
    have lineInside := List.mem_range.mp hi
    have cellInside := List.mem_range.mp hj
    have line : w.firstLine + (w.lastLine + 1 - w.firstLine - 1 - i) = w.lastLine - i := by omega
    have cell : w.firstCell + (w.lastCell + 1 - w.firstCell - 1 - j) = w.lastCell - j := by omega
    rw [Function.comp_apply, line, cell]

end

/-! ### The bytes of a frame (R158, R159, R164, 11.6) -/

/-- What a cell is sent as in each display mode (R158). -/
theorem frameCell_eq (mode : DisplayMode) (x : Cell) :
    frameCell mode x =
      match mode with
      | .normal => [x.char, if x.emphasis then 1#8 else 0#8]
      | .inverse => [x.char, if x.emphasis then 3#8 else 2#8]
      | .blank => [0x20#8, 0#8]
      | .test => [0x7F#8, 1#8] := by
  obtain ⟨char, emphasis⟩ := x
  cases mode <;> cases emphasis <;> rfl

theorem frameContents : Claims.FrameContents := by
  intro b w lines board cells last rows lineCount cellCount duty sent body
  have sentEq (line cell : Nat) : frameCell b.display (cellAt b.image line cell) = sent line cell :=
    frameCell_eq _ _
  have dutyEq : frameDuty b = duty := rfl
  have cellBytes : (windowCells b.image w).flatMap (frameCell b.display) =
      (List.range lineCount).flatMap fun i => (List.range cellCount).flatMap fun j =>
        if w.turned then sent (w.lastLine - i) (w.lastCell - j)
        else sent (w.firstLine + i) (w.firstCell + j) := by
    rw [windowCells_eq lines board cells last rows, List.flatMap_assoc]
    refine List.flatMap_congr fun i _ => ?_
    rw [List.flatMap_map]
    refine List.flatMap_congr fun j _ => ?_
    rw [apply_ite (frameCell b.display), sentEq, sentEq]
  have bodyEq : be8 w.address ++ be8 lineCount ++ be8 cellCount ++ [frameDuty b] ++
      (windowCells b.image w).flatMap (frameCell b.display) = body := by
    rw [cellBytes, dutyEq]
    rfl
  have whole : frameBytes b w = _ ++ be16 (crc16 _).toNat := rfl
  rw [whole, bodyEq, two_eq]

/-- Settles O55: the frame built is that of the first window a search through the six finds, and its cells are a
stretch of each line of a stretch of lines, reversed as a whole when the window is turned. -/
theorem scanSendsWindowsInOrder : Obligations.ScanSendsWindowsInOrder := ⟨scanStartAndFrameSent, frameContents⟩

end Sys2Proof.Machine
end

section
/-! Asking the board and the device: the replies to Read Lines and Status, and what Status clears (R166, R170). -/

namespace Sys2Proof.Machine

/-! ### Read Lines (R166) -/

theorem readLines_of_within {first count : Nat} (c : Channel) {s : State} (line : first < s.bi.lineCount)
    (some_ : 1 ≤ count) (few : count ≤ 12) (within : first + count ≤ s.bi.lineCount) :
    readLines first count c s =
      .done (s.enqueueReply c
        (.lines s.bi.lineCount s.bi.bandHeight first ((s.bi.image.drop first).take count))) :=
  if_pos ⟨line, some_, few, within⟩

theorem readLines_of_outside {first count : Nat} (c : Channel) {s : State}
    (outside : s.bi.lineCount ≤ first ∨ count = 0 ∨ 12 < count ∨ s.bi.lineCount < first + count) :
    readLines first count c s = .refused .badValue s :=
  if_neg (by omega)

theorem readLinesResult : Claims.ReadLinesResult := by
  intro c p s hd first count
  rw [show exec (.readLines p) s = execReadLines p s from rfl]
  split
  · rename_i outside
    exact receive_of_refused hd (readLines_of_outside c outside)
  · rename_i inside
    simp only [not_or, Nat.not_le, Nat.not_lt] at inside
    obtain ⟨line, some_, few, within⟩ := inside
    exact receive_of_done hd (readLines_of_within c line (Nat.pos_of_ne_zero some_) few within)

/-! ### Status (R170) -/

/-- Bit w of the unusable windows is window w's flag (R162). -/
theorem unusableBits_getLsbD (b : BoardState) (w : Fin 6) : (unusableBits b).getLsbD w.val = b.unusable[w] := by
  obtain ⟨w0, w1, w2, w3, w4, w5⟩ := getLsbD_ofBits b.unusable[0] b.unusable[1] b.unusable[2] b.unusable[3]
    b.unusable[4] b.unusable[5]
  fin_cases w
  exacts [w0, w1, w2, w3, w4, w5]

/-- The oldest number is the first entry's, the next number of an empty log (R107). -/
theorem oldest_eq_head (l : SplitLog) : l.oldest = (l.entries.head?.map fun e => e.number).getD l.next := by
  unfold SplitLog.oldest
  rcases l.entries with - | ⟨e, rest⟩ <;> rfl

/-- The reader group is that of the reader whose channel asks (R45, R170). -/
theorem readerGroup_eq (s : State) (c : Channel) :
    readerGroup s c =
      if c = 0 then some (s.cmu.marksA.queue.length, s.att.countsA.lost, s.att.countsA.orphan)
      else if c = 1 then some (s.cmu.marksB.queue.length, s.att.countsB.lost, s.att.countsB.orphan)
      else none := by
  fin_cases c <;> rfl

/-- The reply that Status queues, and the counts that it clears (R32, R170). -/
theorem statusRequest_eq (c : Channel) (s : State) :
    statusRequest c s =
      (s.withLc
        { s.lc with replies := s.lc.replies.set c (s.lc.replies[c] ++ [.status (statusReply s c)]) }).withAtt
        { s.att with
          countsA := if c = 0 then { lost := 0, orphan := 0 } else s.att.countsA
          countsB := if c = 1 then { lost := 0, orphan := 0 } else s.att.countsB } := by
  rw [statusRequest, clearCounts_eq]
  rfl

theorem statusResult : Claims.StatusResult := by
  intro c p s hd zero
  refine ⟨unusableBits s.bi, unusableBits_getLsbD s.bi, ?_⟩
  intro reply
  have replyEq : statusReply s c = reply := by
    rw [statusReply, oldest_eq_head, readerGroup_eq]
    rfl
  have ran : execStatus p s = .next (statusRequest c s) := receive_of_done hd rfl
  rw [statusRequest_eq, replyEq] at ran
  exact ran

/-- Settles O56: the checks of Read Lines one by one, and the items of Status each by its block. -/
theorem askingTheBoardAndStatus : Obligations.AskingTheBoardAndStatus := ⟨readLinesResult, statusResult⟩

end Sys2Proof.Machine
end

section
/-! RESET asserted (R171): the device is held at its power-on values, and of all commands but the two resets only
those of the input lines change anything. -/

namespace Sys2Proof.Machine

/-! ### The input lines -/

/-- The levels the masters drive on the request lines and the busy line, which are inputs. -/
def State.withInputs (s : State) (lines : Vector Bool 4) (busy : Bool) : State :=
  s.withLc { s.lc with requestLine := lines, masterBusy := busy }

/-- The power-on values are the same for all levels of the inputs (R171). -/
theorem withInputs_atPowerOn (lines lines' : Vector Bool 4) (busy busy' held : Bool) (queue : List Instr) :
    (State.atPowerOn lines busy held queue).withInputs lines' busy' = State.atPowerOn lines' busy' held queue := rfl

/-- Every ATTN line is low while RESET is asserted (R171). -/
theorem attn_of_held {s : State} (held : s.resetHeld = true) (c : Channel) : s.attn c = false := by
  simp [State.attn, held]

/-! ### Commands while RESET is asserted -/

/-- Whether a command moves the level of an input line. -/
def movesInput : Instr → Bool
  | .openPattern | .requestRaised _ | .requestDropped _ | .busyRelease => true
  | _ => false

section
variable {s : State} (held : s.resetHeld = true)
include held

/-- An opening burst drives the busy line and is not taken (R3, R171). -/
theorem exec_openPattern_of_reset : exec .openPattern s = .next (s.withInputs s.lc.requestLine true) :=
  if_pos held

/-- A raised request line is a level alone (R171). -/
theorem exec_requestRaised_of_reset (c : Channel) :
    ∃ lines, exec (.requestRaised c) s = .next (s.withInputs lines s.lc.masterBusy) := by
  by_cases high : s.lc.requestLine[c] = true
  · exact ⟨s.lc.requestLine, if_pos high⟩
  · exact ⟨s.lc.requestLine.set c true, (if_neg high).trans (event_of_held _ held)⟩

/-- A dropped request line is a level alone (R171). -/
theorem exec_requestDropped_of_reset (c : Channel) :
    ∃ lines, exec (.requestDropped c) s = .next (s.withInputs lines s.lc.masterBusy) := by
  by_cases high : s.lc.requestLine[c] = true
  · exact ⟨s.lc.requestLine.set c false, (if_pos high).trans (event_of_held _ held)⟩
  · exact ⟨s.lc.requestLine, if_neg high⟩

/-- The release of the busy line is a level alone (R171). -/
theorem exec_busyRelease_of_reset :
    ∃ busy, exec .busyRelease s = .next (s.withInputs s.lc.requestLine busy) := by
  by_cases driven : !s.lc.masterBusy ∨ s.lc.burst.isSome
  · exact ⟨s.lc.masterBusy, if_pos driven⟩
  · exact ⟨false, (if_neg driven).trans (event_of_held _ held)⟩

/-- A command that is no reset and moves no input changes nothing: the device's own events do not happen, and no
packet is heard (R171). -/
theorem exec_unmoved_of_reset {i : Instr} (notPowerOn : i ≠ .powerOn) (notReset : i ≠ .resetAsserted)
    (noInput : movesInput i = false) : exec i s = .next s := by
  have unheard := hearing_of_held held
  unfold exec
  cases i with
  | powerOn => exact absurd rfl notPowerOn
  | resetAsserted => exact absurd rfl notReset
  | openPattern | requestRaised | requestDropped | busyRelease => exact nomatch noInput
  | headerBad | unknownKind => simp [execHeaderBad, execUnknownKind, unheard]
  | normalClose | turnClose | replyBurstEnd | cut | offerTimerExpiry | tenureReached | withdrawalGraceEnd | holdLimit
  | clockAdvance | markPulse | markExpiry | passVisit | fillTimeout | dwellExpiry | minDwellReached | lineExpiry
  | scanStart | frameSent => exact event_of_held _ held
  | crossingReport | timedCrossingReport | clockSet | clockStop | clockTrim | waveSet | gunClear | pointSetup
  | rosterFill | fetchFills | pin | unpin | readRecord | correctPass | tableFlush | collect | release | postMessage
  | deleteMessage | endFeature | featureSetup | listTiming | raceClear | boardLayout | displayMode | brightness
  | dutyTable | panelWindow | scanPeriod | readLines | arbitrationSetup | status | attentionMask | channelReset
  | hold | releaseHold => exact receive_unheard _ unheard

/-- Every command but the two resets leaves all but the levels of the input lines (R171). -/
theorem exec_of_reset {i : Instr} (notPowerOn : i ≠ .powerOn) (notReset : i ≠ .resetAsserted) :
    ∃ lines busy, exec i s = .next (s.withInputs lines busy) := by
  cases input : movesInput i with
  | false => exact ⟨s.lc.requestLine, s.lc.masterBusy, exec_unmoved_of_reset held notPowerOn notReset input⟩
  | true =>
    cases i with
    | openPattern => exact ⟨_, _, exec_openPattern_of_reset held⟩
    | requestRaised c =>
      obtain ⟨lines, ran⟩ := exec_requestRaised_of_reset held c
      exact ⟨lines, _, ran⟩
    | requestDropped c =>
      obtain ⟨lines, ran⟩ := exec_requestDropped_of_reset held c
      exact ⟨lines, _, ran⟩
    | busyRelease =>
      obtain ⟨busy, ran⟩ := exec_busyRelease_of_reset held
      exact ⟨_, busy, ran⟩
    | _ => exact nomatch input

end

/-! ### Every step keeps the power-on values -/

theorem resetHolds_atPowerOn (lines : Vector Bool 4) (busy held : Bool) (queue : List Instr) :
    ResetHolds (State.atPowerOn lines busy held queue) := by
  intro asserted
  rw [State.atPowerOn_resetHeld] at asserted
  rw [asserted]
  rfl

/-- A change of the input lines leaves the power-on values. -/
theorem ResetHolds.withInputs {s : State} (h : ResetHolds s) (lines : Vector Bool 4) (busy : Bool) :
    ResetHolds (s.withInputs lines busy) := fun held =>
  (congrArg (·.withInputs lines busy) (h held)).trans (withInputs_atPowerOn ..)

theorem ResetHolds.withPending {s : State} (h : ResetHolds s) (queue : List Instr) :
    ResetHolds (s.withPending queue) := fun held => congrArg (·.withPending queue) (h held)

theorem exec_resetHolds {i : Instr} {s t : State} (h : exec i s = .next t) (hs : ResetHolds s) : ResetHolds t := by
  by_cases hp : i = .powerOn
  · subst hp
    cases h
    exact fun held => nomatch held
  · by_cases hr : i = .resetAsserted
    · subst hr
      cases h
      exact resetHolds_atPowerOn _ _ _ _
    · obtain ⟨-, -, level, -⟩ := exec_moves h hp hr
      intro held
      obtain ⟨lines, busy, ran⟩ := exec_of_reset (level.symm.trans held) hp hr
      obtain rfl := Host.Outcome.next.inj (ran.symm.trans h)
      exact hs.withInputs lines busy held

/-- No time passes while RESET is asserted (R171). -/
theorem passMillisecond_of_reset {s : State} (held : s.resetHeld = true) : passMillisecond s = s := if_pos held

theorem passMillisecond_resetHolds {s : State} (hs : ResetHolds s) : ResetHolds (passMillisecond s) := by
  intro held
  obtain ⟨-, level⟩ := passMillisecond_link s
  rw [level] at held
  rw [passMillisecond_of_reset held]
  exact hs held

/-- Settles O5: RESET asserted anew puts every block at its power-on values, and while it stays asserted the other
commands move the input lines alone. -/
theorem everyStepKeepsResetHolds : Obligations.EveryStepKeepsResetHolds := fun _ _ hs step =>
  step_keeps (fun _ q h => h.withPending q) (fun _ _ _ => exec_resetHolds) (fun _ => passMillisecond_resetHolds)
    step hs

/-! ### RESET_ASSERTED, and nothing moves (R171) -/

theorem resetAssertedHoldsEveryBlock : Claims.ResetAssertedHoldsEveryBlock := by
  intro s
  refine ⟨_, rfl, rfl, ⟨_, exec_powerOn s, ?_⟩, fun c => ⟨rfl, attn_of_held rfl c⟩⟩
  rw [State.withLc_lc, (grantDecision_eq 0 _).1]
  rfl

theorem nothingMovesWhileResetIsHeld : Claims.NothingMovesWhileResetIsHeld := by
  intro i s held notPowerOn notReset
  obtain ⟨lines, busy, ran⟩ := exec_of_reset held notPowerOn notReset
  exact ⟨_, ran, rfl, attn_of_held held⟩

/-- Settles O4: RESET_ASSERTED is POWER_ON without its grant decision, and then only the input lines move. -/
theorem resetHeldStopsTheDevice : Obligations.ResetHeldStopsTheDevice :=
  ⟨resetAssertedHoldsEveryBlock, nothingMovesWhileResetIsHeld⟩

end Sys2Proof.Machine
end

section
/-! Right after reset (R171): the clock alone asks for attention, and every invariant holds. -/

namespace Sys2Proof.Machine

/-! ### Attention (R168, R171) -/

/-- Right after reset the clock is STOPPED, and no other condition is present (R171). -/
theorem present_reset : ∀ c : Channel, present State.reset c = 0b000100#6 := by decide

/-- Every mask enables all six conditions right after reset (R171). -/
theorem masks_reset (c : Channel) : State.reset.att.masks[c] = 0x3F#6 := by
  simp [State.reset, State.atPowerOn, attentionAtPowerOn]

theorem attentionAtReset : Claims.AttentionAtReset := by
  intro c
  refine ⟨(attn_iff _ c).mpr ⟨rfl, 2, by decide, ?_⟩, present_reset c⟩
  rw [present_reset, masks_reset]
  decide

/-! ### The invariants -/

/-- No channel asks and no burst is on the line right after reset, so IDLE agrees with it (R14, log 4). -/
theorem reset_arbiterSound : ArbiterSound State.reset := by
  have low (c : Channel) : State.reset.lc.requestLine[c] = false := by simp [State.reset, linkAtPowerOn]
  exact ⟨nofun, nofun, .inl rfl, rfl, rfl, .inr (.inr ⟨low, rfl⟩)⟩

theorem reset_recordsSound : RecordsSound State.reset :=
  (recordsSound_iff _).mpr (linkAtPowerOn_boundsSound _ _)

theorem reset_timeSound : TimeSound State.reset := (timeSound_iff _).mpr (cmuAtPowerOn_sound 0)

/-- No slot is occupied right after reset, so none is STALE (R87). -/
theorem reset_staleSound : StaleSound State.reset := fun i _ occupied =>
  nomatch (emptyTable_slot i).symm.trans occupied

theorem reset_logSound : LogSound State.reset := (logSound_iff _).mpr emptyLog_sound

theorem reset_allocationSound : AllocationSound State.reset :=
  ⟨emptyTable_order, tableSound_empty, atPowerOn_referencesSound ..⟩

theorem invariantsHoldAtReset : Claims.InvariantsHoldAtReset :=
  ⟨resetHolds_atPowerOn _ _ _ _, reset_arbiterSound, reset_recordsSound, reset_timeSound, reset_staleSound,
    reset_logSound, reset_allocationSound⟩

/-- Settles O6: the conditions and masks right after reset, and each invariant from its block's power-on values. -/
theorem readyAfterReset : Obligations.ReadyAfterReset := ⟨attentionAtReset, invariantsHoldAtReset⟩

end Sys2Proof.Machine
end
